-- ==== Sys2Proof/Word.lean ====
section
/-! DEFINITION. The words of the block and the value types of its operands, events, units and trace records.
Spec: 00_scope.md R8, R10, R11; 10_state.md R25 to R37; 20_memory.md R62; 30_encoding.md R91, R104. -/

namespace Sys2Proof

/-- "A byte is 8 bits" (R8). -/
abbrev Byte := BitVec 8

/-- The two byte orders (R62). -/
inductive Endian where
  | little
  | big
  deriving DecidableEq, Repr, Inhabited

/-- `org` of `B.SEEK` (R91): where a seek counts from. -/
inductive Origin where
  | fromBegin
  | fromCurrent
  | fromEnd
  deriving DecidableEq, Repr, Inhabited

/-- `refresh_mode: Full | Partial` (R31). -/
inductive RefreshMode where
  | partialMode
  | fullMode
  deriving DecidableEq, Repr, Inhabited

/-- `auto_refresh_mode: None | FullRefresh | ClearToWhite` (R32). -/
inductive RefreshPolicy where
  | noPolicy
  | fullRefresh
  | clearToWhite
  deriving DecidableEq, Repr, Inhabited

/-- The kind of a Touch Event (R25); `absent` is the spec's `None`, which no rule produces. -/
inductive EventKind where
  | absent
  | touch
  | drag
  | release
  | unlock
  deriving DecidableEq, Repr, Inhabited

/-- A Touch Event (R25). -/
structure TouchEvent where
  kind : EventKind
  touchId : BitVec 8
  x : BitVec 16
  y : BitVec 16
  size : BitVec 16
  deriving DecidableEq, Repr, Inhabited

/-- One parsed touch record (R104), its reserved byte dropped. -/
structure TouchRecord where
  touchId : BitVec 8
  x : BitVec 16
  y : BitVec 16
  size : BitVec 16
  deriving DecidableEq, Repr, Inhabited

/-- `cfg`, the Touch Controller Configuration (R27). -/
structure TouchConfig where
  maxX : BitVec 16
  maxY : BitVec 16
  maxTouchPoints : BitVec 8
  deriving DecidableEq, Repr, Inhabited

/-- The state of unit TES but for its ready flag (R26 to R28): what a `TransportError` of the unit leaves
unspecified (R300). The table is a map from id to event, kept in ascending order of id. -/
structure TouchUnit where
  table : List (BitVec 8 × TouchEvent)
  cfg : TouchConfig
  locked : Bool
  deriving DecidableEq, Repr, Inhabited

/-- The state of unit ERS but for its ready flag (R31 to R37): what a `TransportError` of the unit leaves
unspecified (R300). -/
structure PanelUnit where
  refreshMode : RefreshMode
  autoRefreshMode : RefreshPolicy
  partialRefreshCount : BitVec 32
  maxPartialRefreshes : BitVec 32
  autoRefreshing : Bool
  width : BitVec 16
  height : BitVec 16
  deriving DecidableEq, Repr, Inhabited

/-- A timeout: unset, or a number of milliseconds (R92, 92_eei_decisions.md D48). -/
inductive Timeout where
  | unset
  | ms (n : Nat)
  deriving DecidableEq, Repr, Inhabited

/-- How the environment answers a wait on a line: the event fires, the timeout elapses, or neither ever happens
(R306; 93_implementation_defined.md U19). -/
inductive WaitAnswer where
  | fired
  | expired
  | never
  deriving DecidableEq, Repr, Inhabited

/-- One action of the parameter `EPD_HW_RESET_SEQ` (R213). -/
inductive ResetAction where
  | setLine (level : Bool)
  | pause (ms : Nat)
  deriving DecidableEq, Repr, Inhabited

/-- The digital lines (R9). -/
inductive Line where
  | tInt
  | tRst
  | eRst
  | eDc
  | eBusy
  deriving DecidableEq, Repr, Inhabited

/-- Direction of a line in `LINE_CFG` (R10, R216). -/
inductive LineDirection where
  | input
  | output
  deriving DecidableEq, Repr, Inhabited

/-- Edge detection of a line in `LINE_CFG` (R10, R216). -/
inductive LineEdge where
  | none
  | falling
  deriving DecidableEq, Repr, Inhabited

/-- Bit order in `SPI_CFG` (R10, R216). -/
inductive BitOrder where
  | msbFirst
  | lsbFirst
  deriving DecidableEq, Repr, Inhabited

/-- One record of the outward trace (R10). A failed bus call is recorded with `ok = false`, or with no answer. -/
inductive Record where
  | i2cWrite (dev : Nat) (reg payload : List Byte) (ok : Bool)
  | i2cRead (dev : Nat) (reg : List Byte) (n : Nat) (answer : Option (List Byte))
  | spiWrite (bytes : List Byte) (ok : Bool)
  | spiConfig (bitsPerWord : Nat) (order : BitOrder) (wires mode hz interByteDelay : Nat)
  | lineConfig (line : Line) (direction : LineDirection) (edge : LineEdge)
  | lineSet (line : Line) (level : Bool)
  | lineGet (line : Line) (answer : Bool)
  | lineWait (line : Line) (timeout : Timeout) (answer : Bool)
  | lineDrain (line : Line)
  | pause (ms : Nat)
  deriving DecidableEq, Repr, Inhabited

end Sys2Proof
end

