-- ==== Sys2Proof/Syntax.lean ====
section
/-! DEFINITION. The instructions: one constructor for each of the 64 rows of spec/opcode_table.json, with the
operands 30_encoding.md R92 assembles for it. The 42 `b`, `t` and `e` constructors are the host operations of R93;
the 14 `epd` constructors are the panel commands of R108, the 8 `touch` constructors the register accesses of R66,
which the block itself issues inside host operations and which stand here at the grain of one primitive (R12). -/

namespace Sys2Proof

/-- The instructions of the block. -/
inductive Instr where
  /-- `B.TOBE.1` (R147). -/
  | bTobe1 (v : BitVec 8)
  /-- `B.TOBE.2` (R147). -/
  | bTobe2 (v : BitVec 16)
  /-- `B.TOBE.4` (R147). -/
  | bTobe4 (v : BitVec 32)
  /-- `B.TOBE.8` (R147). -/
  | bTobe8 (v : BitVec 64)
  /-- `B.TOLE.1` (R148). -/
  | bTole1 (v : BitVec 8)
  /-- `B.TOLE.2` (R148). -/
  | bTole2 (v : BitVec 16)
  /-- `B.TOLE.4` (R148). -/
  | bTole4 (v : BitVec 32)
  /-- `B.TOLE.8` (R148). -/
  | bTole8 (v : BitVec 64)
  /-- `B.WRAP.LE` (R140). -/
  | bWrapLe (din : List Byte)
  /-- `B.WRAP.BE` (R140). -/
  | bWrapBe (din : List Byte)
  /-- `B.READ.1` (R141). -/
  | bRead1
  /-- `B.READ.2` (R141). -/
  | bRead2
  /-- `B.READ.4` (R141). -/
  | bRead4
  /-- `B.READ.8` (R141). -/
  | bRead8
  /-- `B.WRITE.1` (R143). -/
  | bWrite1 (v : BitVec 8)
  /-- `B.WRITE.2` (R143). -/
  | bWrite2 (v : BitVec 16)
  /-- `B.WRITE.4` (R143). -/
  | bWrite4 (v : BitVec 32)
  /-- `B.WRITE.8` (R143). -/
  | bWrite8 (v : BitVec 64)
  /-- `B.SEEK.BEG`; the offset is a signed 64-bit value (R145). -/
  | bSeekBeg (off : BitVec 64)
  /-- `B.SEEK.CUR` (R145). -/
  | bSeekCur (off : BitVec 64)
  /-- `B.SEEK.END` (R145). -/
  | bSeekEnd (off : BitVec 64)
  /-- `B.TELL` (R146). -/
  | bTell
  /-- `B.DUMP` (R149). -/
  | bDump
  /-- `T.INIT` (R173). -/
  | tInit
  /-- `T.CFG` (R174). -/
  | tCfg
  /-- `T.LOCK` (R175). -/
  | tLock
  /-- `T.WAIT`; the operand is port `A`, all ones for unset (R187, R92). -/
  | tWait (timeout : BitVec 64)
  /-- `T.POLL` (R176). -/
  | tPoll
  /-- `E.INIT` (R217). -/
  | eInit (w h : BitVec 16)
  /-- `E.SETSIZE` (R218). -/
  | eSetsize (w h : BitVec 16)
  /-- `E.GEOM` (R219). -/
  | eGeom
  /-- `E.SETMODE.P` (R251). -/
  | eSetmodeP
  /-- `E.SETMODE.F` (R251). -/
  | eSetmodeF
  /-- `E.SETAUTO.NONE` (R254). -/
  | eSetautoNone
  /-- `E.SETAUTO.FULL` (R254). -/
  | eSetautoFull
  /-- `E.SETAUTO.WHITE` (R254). -/
  | eSetautoWhite
  /-- `E.SETMAX` (R255). -/
  | eSetmax (n : BitVec 32)
  /-- `E.CLEAR.W` (R258). -/
  | eClearW
  /-- `E.CLEAR.B` (R258). -/
  | eClearB
  /-- `E.RAWFB` (R257). -/
  | eRawfb (din : List Byte)
  /-- `E.PUTBMP`; `px`, `py` are signed 32-bit values (R259). -/
  | ePutbmp (px py : BitVec 32) (bw bh : BitVec 16) (din : List Byte)
  /-- `E.POWEROFF` (R229). -/
  | ePoweroff
  /-- `EPD.DriverOutputControl` (R108, R214). -/
  | epdDriverOutputControl
  /-- `EPD.DeepSleep` (R108, R229). -/
  | epdDeepSleep
  /-- `EPD.DataInputMode` (R108, R214). -/
  | epdDataInputMode
  /-- `EPD.SoftReset` (R108, R214). -/
  | epdSoftReset
  /-- `EPD.TemperatureSource` (R108, R214). -/
  | epdTemperatureSource
  /-- `EPD.BeginUpdate` (R108, R215). -/
  | epdBeginUpdate
  /-- `EPD.DisplayUpdateControl1` (R108, R214). -/
  | epdDisplayUpdateControl1
  /-- `EPD.DisplayUpdateControl2`, its payload by mode (R108, R215). -/
  | epdDisplayUpdateControl2 (mode : RefreshMode)
  /-- `EPD.UploadImageData` with its image bytes (R108, R223, R228). -/
  | epdUploadImageData (data : List Byte)
  /-- `EPD.BorderWaveformControl`, its payload by mode (R108, R214). -/
  | epdBorderWaveformControl (mode : RefreshMode)
  /-- `EPD.DrawRegionX`, inclusive pixel columns (R108, R220). -/
  | epdDrawRegionX (x0 x1 : BitVec 16)
  /-- `EPD.DrawRegionY`, inclusive pixel rows (R108, R220). -/
  | epdDrawRegionY (y0 y1 : BitVec 16)
  /-- `EPD.DrawOffsetX` (R108, R221). -/
  | epdDrawOffsetX (ox : BitVec 16)
  /-- `EPD.DrawOffsetY` (R108, R221). -/
  | epdDrawOffsetY (oy : BitVec 16)
  /-- `TOUCH.ID.READ` (R66, R101). -/
  | touchIdRead
  /-- `TOUCH.CONFIG.READ` (R66, R102). -/
  | touchConfigRead
  /-- `TOUCH.STATUS.READ` (R66, R103). -/
  | touchStatusRead
  /-- `TOUCH.STATUS.ACK` (R66, R179). -/
  | touchStatusAck
  /-- `TOUCH.FRAME.READ` of `1 + count*8` bytes (R66, R105). -/
  | touchFrameRead (count : BitVec 4)
  /-- `TOUCH.LOCKCTL.WRITE` (R66, R106). -/
  | touchLockctlWrite
  /-- `TOUCH.LOCKSTATUS.READ` (R66, R106). -/
  | touchLockstatusRead
  /-- `TOUCH.LOCKSTATUS.ACK` (R66, R106). -/
  | touchLockstatusAck
  deriving DecidableEq, Repr

/-- Where a request comes from: the host's command port (R90), or, at the grain of one primitive, the panel
sequencer (R108) or the touch unit's register accesses (R100). The host reaches only the first (R93). -/
inductive Channel where
  | host
  | panel
  | touch
  deriving DecidableEq, Repr

/-- An encoded instruction: the word of its row (`CW` of a host operation, the opcode of a panel command, the
register address of a touch access) and the operand ports sampled with it (R20, R90). -/
structure Request where
  chan : Channel
  word : BitVec 16
  a : BitVec 64
  b : BitVec 64
  din : List Byte
  deriving DecidableEq, Repr

/-- The channel of an instruction: the "format" column of spec/opcode_table.json. -/
def Instr.channel : Instr → Channel
  | .bTobe1 _ | .bTobe2 _ | .bTobe4 _ | .bTobe8 _ | .bTole1 _ | .bTole2 _ | .bTole4 _ | .bTole8 _ => .host
  | .bWrapLe _ | .bWrapBe _ | .bRead1 | .bRead2 | .bRead4 | .bRead8 => .host
  | .bWrite1 _ | .bWrite2 _ | .bWrite4 _ | .bWrite8 _ | .bSeekBeg _ | .bSeekCur _ | .bSeekEnd _ => .host
  | .bTell | .bDump | .tInit | .tCfg | .tLock | .tWait _ | .tPoll => .host
  | .eInit _ _ | .eSetsize _ _ | .eGeom | .eSetmodeP | .eSetmodeF => .host
  | .eSetautoNone | .eSetautoFull | .eSetautoWhite | .eSetmax _ => .host
  | .eClearW | .eClearB | .eRawfb _ | .ePutbmp _ _ _ _ _ | .ePoweroff => .host
  | .epdDriverOutputControl | .epdDeepSleep | .epdDataInputMode | .epdSoftReset | .epdTemperatureSource => .panel
  | .epdBeginUpdate | .epdDisplayUpdateControl1 | .epdDisplayUpdateControl2 _ | .epdUploadImageData _ => .panel
  | .epdBorderWaveformControl _ | .epdDrawRegionX _ _ | .epdDrawRegionY _ _ => .panel
  | .epdDrawOffsetX _ | .epdDrawOffsetY _ => .panel
  | .touchIdRead | .touchConfigRead | .touchStatusRead | .touchStatusAck | .touchFrameRead _ => .touch
  | .touchLockctlWrite | .touchLockstatusRead | .touchLockstatusAck => .touch

/-- Bits of a row's word: 8 for a panel opcode, 16 for a command word and for a register address. -/
def Channel.wordBits : Channel → Nat
  | .host => 16
  | .panel => 8
  | .touch => 16

end Sys2Proof
end

