-- ==== Sys2Proof/WellFormed.lean ====
section
/-! DEFINITION. Which instruction terms the spec admits. Host operations take every operand value their ports can
hold (what the spec rejects there is an error of the operation: 60_exceptions.md R290), and R108 gives the panel commands
their payloads for every operand. The one check concerns a primitive the block issues itself. -/

namespace Sys2Proof

/-- A touch frame is read for a count of 1 to 5 only (R66: "`1 + count*8`, count 1..5"). -/
def frameCountOk (count : BitVec 4) : Bool := decide (1 ≤ count.toNat) && decide (count.toNat ≤ 5)

/-- The terms the spec admits. -/
def Instr.wellFormed : Instr → Bool
  | .touchFrameRead count => frameCountOk count
  | .bTobe1 _ | .bTobe2 _ | .bTobe4 _ | .bTobe8 _ | .bTole1 _ | .bTole2 _ | .bTole4 _ | .bTole8 _ => true
  | .bWrapLe _ | .bWrapBe _ | .bRead1 | .bRead2 | .bRead4 | .bRead8 => true
  | .bWrite1 _ | .bWrite2 _ | .bWrite4 _ | .bWrite8 _ | .bSeekBeg _ | .bSeekCur _ | .bSeekEnd _ => true
  | .bTell | .bDump | .tInit | .tCfg | .tLock | .tWait _ | .tPoll => true
  | .eInit _ _ | .eSetsize _ _ | .eGeom | .eSetmodeP | .eSetmodeF => true
  | .eSetautoNone | .eSetautoFull | .eSetautoWhite | .eSetmax _ => true
  | .eClearW | .eClearB | .eRawfb _ | .ePutbmp _ _ _ _ _ | .ePoweroff => true
  | .epdDriverOutputControl | .epdDeepSleep | .epdDataInputMode | .epdSoftReset | .epdTemperatureSource => true
  | .epdBeginUpdate | .epdDisplayUpdateControl1 | .epdDisplayUpdateControl2 _ | .epdUploadImageData _ => true
  | .epdBorderWaveformControl _ | .epdDrawRegionX _ _ | .epdDrawRegionY _ _ => true
  | .epdDrawOffsetX _ | .epdDrawOffsetY _ => true
  | .touchIdRead | .touchConfigRead | .touchStatusRead | .touchStatusAck => true
  | .touchLockctlWrite | .touchLockstatusRead | .touchLockstatusAck => true

end Sys2Proof
end

