-- ==== Sys2Proof/Decode.lean ====
section
/-! DEFINITION. From a request to an instruction, and back. Host command words: 30_encoding.md R90 to R96. Panel
opcodes: R108. Touch register addresses: R66, R100. The word is the spec's; where the operands of a primitive travel
is the model's own (the spec passes them as procedure arguments): notes/assumptions/6.md. -/

namespace Sys2Proof

/-- Why a request is no instruction. -/
inductive DecodeError where
  /-- `CW[15:12]` is 3 to 15 (R90, R96). -/
  | reservedUnit
  /-- `CW[11:8]` names no operation of its unit (R96). -/
  | reservedOp
  /-- "a `mod` with a bit set that the operation does not name" (R96). -/
  | strayModifier
  /-- `org = 3` (R96). -/
  | reservedOrigin
  /-- `p = 3` (R96). -/
  | reservedPolicy
  /-- An opcode that is not one of the fourteen (R108, R210). -/
  | unknownOpcode
  /-- A register address that is not one of the five (R66, R170). -/
  | unknownRegister
  /-- A touch frame of 6 to 15 records: "count 1..5" (R66). -/
  | badCount
  deriving DecidableEq, Repr

/-- The name under which a word of the command port outside R93 is rejected (R96). -/
def hostRejection (cw : BitVec 16) : DecodeError :=
  let unit := (cw.extractLsb' 12 4).toNat
  let op := (cw.extractLsb' 8 4).toNat
  let mod := (cw.extractLsb' 0 8).toNat
  let lastOp := if unit = 0 then 7 else if unit = 1 then 4 else 9
  if 2 < unit then .reservedUnit
  else if lastOp < op then .reservedOp
  else if unit = 0 ∧ op = 5 ∧ mod = 3 then .reservedOrigin
  else if unit = 2 ∧ op = 4 ∧ mod = 3 then .reservedPolicy
  else .strayModifier

/-- The operation map R93, with the operands of R92: `CW` and the ports to the host operation. -/
def decodeHost (cw : BitVec 16) (a b : BitVec 64) (din : List Byte) : Except DecodeError Instr :=
  match cw.toNat with
  | 0x0000 => .ok (.bTobe1 (a.extractLsb' 0 8))
  | 0x0001 => .ok (.bTobe2 (a.extractLsb' 0 16))
  | 0x0002 => .ok (.bTobe4 (a.extractLsb' 0 32))
  | 0x0003 => .ok (.bTobe8 a)
  | 0x0100 => .ok (.bTole1 (a.extractLsb' 0 8))
  | 0x0101 => .ok (.bTole2 (a.extractLsb' 0 16))
  | 0x0102 => .ok (.bTole4 (a.extractLsb' 0 32))
  | 0x0103 => .ok (.bTole8 a)
  | 0x0200 => .ok (.bWrapLe din)
  | 0x0201 => .ok (.bWrapBe din)
  | 0x0300 => .ok .bRead1
  | 0x0301 => .ok .bRead2
  | 0x0302 => .ok .bRead4
  | 0x0303 => .ok .bRead8
  | 0x0400 => .ok (.bWrite1 (a.extractLsb' 0 8))
  | 0x0401 => .ok (.bWrite2 (a.extractLsb' 0 16))
  | 0x0402 => .ok (.bWrite4 (a.extractLsb' 0 32))
  | 0x0403 => .ok (.bWrite8 a)
  | 0x0500 => .ok (.bSeekBeg a)
  | 0x0501 => .ok (.bSeekCur a)
  | 0x0502 => .ok (.bSeekEnd a)
  | 0x0600 => .ok .bTell
  | 0x0700 => .ok .bDump
  | 0x1000 => .ok .tInit
  | 0x1100 => .ok .tCfg
  | 0x1200 => .ok .tLock
  | 0x1300 => .ok (.tWait a)
  | 0x1400 => .ok .tPoll
  | 0x2000 => .ok (.eInit (a.extractLsb' 0 16) (a.extractLsb' 16 16))
  | 0x2100 => .ok (.eSetsize (a.extractLsb' 0 16) (a.extractLsb' 16 16))
  | 0x2200 => .ok .eGeom
  | 0x2300 => .ok .eSetmodeP
  | 0x2301 => .ok .eSetmodeF
  | 0x2400 => .ok .eSetautoNone
  | 0x2401 => .ok .eSetautoFull
  | 0x2402 => .ok .eSetautoWhite
  | 0x2500 => .ok (.eSetmax (a.extractLsb' 0 32))
  | 0x2600 => .ok .eClearW
  | 0x2601 => .ok .eClearB
  | 0x2700 => .ok (.eRawfb din)
  | 0x2800 =>
    .ok (.ePutbmp (a.extractLsb' 0 32) (a.extractLsb' 32 32) (b.extractLsb' 0 16) (b.extractLsb' 16 16) din)
  | 0x2900 => .ok .ePoweroff
  | _ => .error (hostRejection cw)

/-- The mode operand of a primitive: bit 0 of `A`, 1 for Full, as `m` of R91. -/
def modeOfPort (a : BitVec 64) : RefreshMode := if a.getLsbD 0 then .fullMode else .partialMode

/-- The fourteen panel commands by opcode (R108). -/
def decodePanel (opcode : BitVec 16) (a : BitVec 64) (din : List Byte) : Except DecodeError Instr :=
  match opcode.toNat with
  | 0x01 => .ok .epdDriverOutputControl
  | 0x10 => .ok .epdDeepSleep
  | 0x11 => .ok .epdDataInputMode
  | 0x12 => .ok .epdSoftReset
  | 0x18 => .ok .epdTemperatureSource
  | 0x20 => .ok .epdBeginUpdate
  | 0x21 => .ok .epdDisplayUpdateControl1
  | 0x22 => .ok (.epdDisplayUpdateControl2 (modeOfPort a))
  | 0x24 => .ok (.epdUploadImageData din)
  | 0x3c => .ok (.epdBorderWaveformControl (modeOfPort a))
  | 0x44 => .ok (.epdDrawRegionX (a.extractLsb' 0 16) (a.extractLsb' 16 16))
  | 0x45 => .ok (.epdDrawRegionY (a.extractLsb' 0 16) (a.extractLsb' 16 16))
  | 0x4e => .ok (.epdDrawOffsetX (a.extractLsb' 0 16))
  | 0x4f => .ok (.epdDrawOffsetY (a.extractLsb' 0 16))
  | _ => .error .unknownOpcode

/-- The register accesses of R66: Lock control is only written, Config and ID are only read, Lock status and Touch
status are written where the acknowledge flag `A[0]` is set and read otherwise. A read of Touch status takes the record
count of a touch frame from `A[7:4]`, 0 for the status byte alone (a read of `1 + count*8` bytes). Bits an access does
not name are ignored, as R92 has it. -/
def decodeTouch (reg : BitVec 16) (a : BitVec 64) : Except DecodeError Instr :=
  let ack := a.getLsbD 0
  let count := a.extractLsb' 4 4
  match reg.toNat with
  | 0x8040 => .ok .touchLockctlWrite
  | 0x8051 => .ok .touchConfigRead
  | 0x8140 => .ok .touchIdRead
  | 0x814c => .ok (if ack then .touchLockstatusAck else .touchLockstatusRead)
  | 0x814e =>
    if ack then .ok .touchStatusAck
    else if count = 0 then .ok .touchStatusRead
    else if frameCountOk count then .ok (.touchFrameRead count) else .error .badCount
  | _ => .error .unknownRegister

/-- The decoder: total on every request, rejecting by name. -/
def decode (q : Request) : Except DecodeError Instr :=
  match q.chan with
  | .host => decodeHost q.word q.a q.b q.din
  | .panel => decodePanel q.word q.a q.din
  | .touch => decodeTouch q.word q.a

/-! The encoder. -/

/-- A host request: `CW` and ports. -/
def hostRequest (cw : BitVec 16) (a b : BitVec 64) (din : List Byte) : Request := ⟨.host, cw, a, b, din⟩

/-- A panel request: opcode and operands. -/
def panelRequest (opcode : BitVec 16) (a : BitVec 64) (din : List Byte) : Request := ⟨.panel, opcode, a, 0, din⟩

/-- A touch register request: register address and access. -/
def touchRequest (reg : BitVec 16) (a : BitVec 64) : Request := ⟨.touch, reg, a, 0, []⟩

/-- Two 16-bit operands on a port, the first in bits 15..0 (R92). -/
def pairPort (lo hi : BitVec 16) : BitVec 64 := (hi ++ lo).setWidth 64

/-- The mode operand of a primitive on port `A`. -/
def portOfMode : RefreshMode → BitVec 64
  | .partialMode => 0
  | .fullMode => 1

/-- The encoder: the request that presents an instruction (R92, R93, R100, R108). -/
def encode : Instr → Request
  | .bTobe1 v => hostRequest 0x0000 (v.setWidth 64) 0 []
  | .bTobe2 v => hostRequest 0x0001 (v.setWidth 64) 0 []
  | .bTobe4 v => hostRequest 0x0002 (v.setWidth 64) 0 []
  | .bTobe8 v => hostRequest 0x0003 v 0 []
  | .bTole1 v => hostRequest 0x0100 (v.setWidth 64) 0 []
  | .bTole2 v => hostRequest 0x0101 (v.setWidth 64) 0 []
  | .bTole4 v => hostRequest 0x0102 (v.setWidth 64) 0 []
  | .bTole8 v => hostRequest 0x0103 v 0 []
  | .bWrapLe din => hostRequest 0x0200 0 0 din
  | .bWrapBe din => hostRequest 0x0201 0 0 din
  | .bRead1 => hostRequest 0x0300 0 0 []
  | .bRead2 => hostRequest 0x0301 0 0 []
  | .bRead4 => hostRequest 0x0302 0 0 []
  | .bRead8 => hostRequest 0x0303 0 0 []
  | .bWrite1 v => hostRequest 0x0400 (v.setWidth 64) 0 []
  | .bWrite2 v => hostRequest 0x0401 (v.setWidth 64) 0 []
  | .bWrite4 v => hostRequest 0x0402 (v.setWidth 64) 0 []
  | .bWrite8 v => hostRequest 0x0403 v 0 []
  | .bSeekBeg off => hostRequest 0x0500 off 0 []
  | .bSeekCur off => hostRequest 0x0501 off 0 []
  | .bSeekEnd off => hostRequest 0x0502 off 0 []
  | .bTell => hostRequest 0x0600 0 0 []
  | .bDump => hostRequest 0x0700 0 0 []
  | .tInit => hostRequest 0x1000 0 0 []
  | .tCfg => hostRequest 0x1100 0 0 []
  | .tLock => hostRequest 0x1200 0 0 []
  | .tWait timeout => hostRequest 0x1300 timeout 0 []
  | .tPoll => hostRequest 0x1400 0 0 []
  | .eInit w h => hostRequest 0x2000 (pairPort w h) 0 []
  | .eSetsize w h => hostRequest 0x2100 (pairPort w h) 0 []
  | .eGeom => hostRequest 0x2200 0 0 []
  | .eSetmodeP => hostRequest 0x2300 0 0 []
  | .eSetmodeF => hostRequest 0x2301 0 0 []
  | .eSetautoNone => hostRequest 0x2400 0 0 []
  | .eSetautoFull => hostRequest 0x2401 0 0 []
  | .eSetautoWhite => hostRequest 0x2402 0 0 []
  | .eSetmax n => hostRequest 0x2500 (n.setWidth 64) 0 []
  | .eClearW => hostRequest 0x2600 0 0 []
  | .eClearB => hostRequest 0x2601 0 0 []
  | .eRawfb din => hostRequest 0x2700 0 0 din
  | .ePutbmp px py bw bh din => hostRequest 0x2800 (py ++ px) (pairPort bw bh) din
  | .ePoweroff => hostRequest 0x2900 0 0 []
  | .epdDriverOutputControl => panelRequest 0x01 0 []
  | .epdDeepSleep => panelRequest 0x10 0 []
  | .epdDataInputMode => panelRequest 0x11 0 []
  | .epdSoftReset => panelRequest 0x12 0 []
  | .epdTemperatureSource => panelRequest 0x18 0 []
  | .epdBeginUpdate => panelRequest 0x20 0 []
  | .epdDisplayUpdateControl1 => panelRequest 0x21 0 []
  | .epdDisplayUpdateControl2 mode => panelRequest 0x22 (portOfMode mode) []
  | .epdUploadImageData data => panelRequest 0x24 0 data
  | .epdBorderWaveformControl mode => panelRequest 0x3c (portOfMode mode) []
  | .epdDrawRegionX x0 x1 => panelRequest 0x44 (pairPort x0 x1) []
  | .epdDrawRegionY y0 y1 => panelRequest 0x45 (pairPort y0 y1) []
  | .epdDrawOffsetX ox => panelRequest 0x4e (ox.setWidth 64) []
  | .epdDrawOffsetY oy => panelRequest 0x4f (oy.setWidth 64) []
  | .touchIdRead => touchRequest 0x8140 0
  | .touchConfigRead => touchRequest 0x8051 0
  | .touchStatusRead => touchRequest 0x814e 0
  | .touchStatusAck => touchRequest 0x814e 1
  | .touchFrameRead count => touchRequest 0x814e ((count ++ (0 : BitVec 4)).setWidth 64)
  | .touchLockctlWrite => touchRequest 0x8040 0
  | .touchLockstatusRead => touchRequest 0x814c 0
  | .touchLockstatusAck => touchRequest 0x814c 1

/-! Words numbered as spec/opcode_table.json numbers them. -/

/-- The five register addresses the block accesses (R66). -/
def touchRegisters : List Nat := [0x8040, 0x8051, 0x8140, 0x814c, 0x814e]

/-- The channel a table row of `nbits` bits stands in: 8 bits are a panel opcode, a register address is a touch
access (as a command word it would be of the reserved unit 8), every other word is a command word. -/
def channelOfWord (nbits w : Nat) : Channel :=
  if nbits = 8 then .panel else if w % 2 ^ 16 ∈ touchRegisters then .touch else .host

/-- The request of a table row's bits: the word, and operand ports of zeros. -/
def requestOfWord (nbits w : Nat) : Request where
  chan := channelOfWord nbits w
  word := BitVec.ofNat 16 w
  a := 0
  b := 0
  din := []

/-- The instruction the decoder reads from a table row's bits. -/
def decodeTableWord (nbits w : Nat) : Option Instr :=
  match decode (requestOfWord nbits w) with
  | .ok i => some i
  | .error _ => none

end Sys2Proof
end

