-- ==== Sys2Proof/Config.lean ====
section
/-! DEFINITION. What an implementation fixes (the parameters of 00_scope.md R7) and the free values: what the spec
leaves open is an opaque constant here, so that no proof can rest on its value. A parameter that the spec leaves
OPEN without a default is an `Option` of `Params`: `none` stands for the opaque constant of this file. -/

namespace Sys2Proof

/-- The four fields of the `Unlock` event besides its kind: parameter `UNLOCK_FIELDS` (R7, R177). -/
structure UnlockFields where
  touchId : BitVec 8
  x : BitVec 16
  y : BitVec 16
  size : BitVec 16
  deriving DecidableEq, Repr, Inhabited

/-- The parameters of R7 that a rule reads. No instruction writes one. `OFF_BITS` is the width of the cursor in
`State`; `TOUCH_ID_EXPECT` and `TOUCH_MAX_COUNT` are the source's constants and stand in `Machine/Operands.lean`. -/
structure Params where
  /-- `HOST_ENDIAN`, OPEN, no observable effect (D8). -/
  hostEndian : Option Endian
  /-- `BUF_MAX`, "at most 2^63 - 1; default: that maximum" (D4): 63 bits hold every value it may have. -/
  bufMax : BitVec 63
  /-- `TOUCH_DEV_ADDR`, OPEN (D11). -/
  touchDevAddr : Option Nat
  /-- `TOUCH_RESET_PAUSE_MS`, 50 in the source (D12). -/
  touchResetPauseMs : Nat
  /-- `UNLOCK_FIELDS`, OPEN, default (0, 0, 0, 0) (D15). -/
  unlockFields : UnlockFields
  /-- `EPD_HW_RESET_SEQ`, OPEN (D25). -/
  epdHwResetSeq : Option (List ResetAction)
  /-- `EPD_DIM_ARG`, OPEN (D26). -/
  epdDimArg : Option Byte
  /-- Known values of `EPD_DOC_PAYLOAD(W, H)`, each with its `W` and `H`; elsewhere OPEN (D26). -/
  epdDocPayload : List (BitVec 16 × BitVec 16 × List Byte)
  /-- `BUSY_TIMEOUT`, OPEN, default unset (D27). -/
  busyTimeout : Timeout
  /-- `OFFSET_BASE_W`, OPEN; `none` is the default `W` (D30). -/
  offsetBaseW : Option Int
  /-- `OFFSET_BASE_H`, OPEN; `none` is the default `H` (D30). -/
  offsetBaseH : Option Int
  /-- `CROP_PAD_BIT`, OPEN, default 0 (D32). -/
  cropPadBit : Bool
  /-- `EPD_DEFAULT_MAX_PARTIAL`, OPEN (D36). -/
  epdDefaultMaxPartial : Option (BitVec 32)
  deriving DecidableEq, Repr, Inhabited

/-- The parameters with the defaults of R7; OPEN ones without a default stay open. -/
def Params.defaults : Params where
  hostEndian := none
  bufMax := BitVec.allOnes 63
  touchDevAddr := none
  touchResetPauseMs := 50
  unlockFields := ⟨0, 0, 0, 0⟩
  epdHwResetSeq := none
  epdDimArg := none
  epdDocPayload := []
  busyTimeout := .unset
  offsetBaseW := none
  offsetBaseH := none
  cropPadBit := false
  epdDefaultMaxPartial := none

namespace Config

/-! The OPEN parameters without a default (R7). -/

/-- `HOST_ENDIAN` (D8). -/
opaque hostEndian : Endian

/-- `TOUCH_DEV_ADDR` (D11). -/
opaque touchDevAddr : Nat

/-- `EPD_HW_RESET_SEQ` (D25). -/
opaque epdHwResetSeq : List ResetAction

/-- `EPD_DIM_ARG` (D26). -/
opaque epdDimArg : Byte

/-- `EPD_DOC_PAYLOAD(W, H)` (D26). -/
opaque epdDocPayload : BitVec 16 → BitVec 16 → List Byte

/-- `EPD_DEFAULT_MAX_PARTIAL` (D36). -/
opaque epdDefaultMaxPartial : BitVec 32

/-! The environment's answers, "a free input of the step (a draw), under no law" (R10), each applied to the
state's draw counter. -/

/-- The answer of a register read: bytes of any length (D23), or none where the call fails (R291). -/
opaque freeRegRead : Nat → Option (List Byte)

/-- Whether a register write succeeds (R291). -/
opaque freeRegWrite : Nat → Bool

/-- Whether a write on the streaming transport succeeds (R291). -/
opaque freeSpiWrite : Nat → Bool

/-- The answer of a wait on `T_INT` (R187, R180). -/
opaque freeTouchWait : Nat → WaitAnswer

/-- The level `E_BUSY` reads (R212). -/
opaque freeBusyLevel : Nat → Bool

/-- The answer of a wait on `E_BUSY` (R212). -/
opaque freeBusyWait : Nat → WaitAnswer

/-! The values the spec calls unspecified. -/

/-- The "implementation-defined order" of one poll's events (R186, D17), as a choice code for `arrange`. -/
opaque freeEventOrder : Nat → List Nat

/-- `R` where it is not a valid port of the operation, or after an error (R93, R296). -/
opaque freeResult : Nat → BitVec 64

/-- `DOUT` where it is not a valid port of the operation, or after an error (R93, R296). -/
opaque freeDout : Nat → List Byte

/-- All TES state but the ready flag after a `TransportError` in TES (R300). -/
opaque freeTouchUnit : Nat → TouchUnit

/-- All ERS state but the ready flag after a `TransportError` in ERS (R300). -/
opaque freePanelUnit : Nat → PanelUnit

/-- The "arbitrary bytes" `B.WRITE` appends before it writes (R143): draw counter, then position. -/
opaque growthByte : Nat → Nat → Byte

end Config

end Sys2Proof
end

