-- ==== Sys2Proof/Machine/State.lean ====
section
/-! DEFINITION. The state of the block as plain data, its value at block reset, and how a step can end.
Spec: 10_state.md (R50 is its own list of the state), 60_exceptions.md R290, 70_reset_and_hazards.md R330. -/

namespace Sys2Proof.Machine

/-- Why the machine stops: it never ends the running operation. -/
inductive Fault where
  /-- Raised by a wait on a line with the timeout unset to which the environment answers that neither an edge nor an
  expiry ever comes (R306, 00_scope.md R14, 93_implementation_defined.md U19: `stuck`). Safe: nothing is claimed of
  what follows. -/
  | waitNeverAnswered
  deriving DecidableEq, Repr

/-- Why a step has no meaning. -/
inductive Refusal where
  /-- An instruction without a meaning; no arm of `exec` uses it. Safe. -/
  | notModelled (mnemonic : String)
  /-- Raised by `T.POLL` for a touch frame with two records of one id: "a frame that repeats an id has no specified
  result" (R182, D18, U7: `refuse`). Safe. -/
  | duplicateTouchId
  /-- Raised by `E.PUTBMP` for a row offset below 0 or above 65535: "the source gives no result and the model refuses
  the operation that asked" (R222, D31, U23: `refuse`). Safe. -/
  | rowOffsetOutOfRange
  /-- Raised by `step` for a request at primitive grain that is no row of the table: another panel opcode (R109), another
  register (R170), a frame of 6 to 15 records (R66). The block never issues one. Safe. -/
  | notAWireCommand
  deriving DecidableEq, Repr

/-- The units with a ready flag and a bus (R299). -/
inductive WireUnit where
  | touchUnit
  | panelUnit
  deriving DecidableEq, Repr

/-- The error causes of R290; a `TransportError` names the unit whose bus call failed. -/
inductive Error where
  | transportError (unit : WireUnit)
  | protocolMismatch
  | outOfRange
  | capacityExceeded
  | illegalOp
  | notReady
  deriving DecidableEq, Repr

/-- The BBC buffer as a list of (offset, byte) cells: offsets 0, 1, 2, … in order (R22, R60). An offset that is not
listed holds no byte. -/
structure Memory where
  cells : List Host.Cell
  deriving DecidableEq, Repr

/-- The canonical form: the listed offsets are 0 to `len - 1`, rising. -/
abbrev Memory.wf (m : Memory) : Prop := m.cells.map Prod.fst = List.range m.cells.length

/-- What the environment will answer, one queue for each kind of query, the next answer first (R10, R12). Where a
queue is empty the answer is a free value of `Config`. -/
structure Answers where
  /-- Register reads: the bytes, or `none` for a failed call. -/
  regRead : List (Option (List Byte))
  /-- Register writes: whether the call succeeds. -/
  regWrite : List Bool
  /-- Streaming writes: whether the call succeeds. -/
  spiWrite : List Bool
  /-- Waits on `T_INT`. -/
  touchWait : List WaitAnswer
  /-- Levels read on `E_BUSY`. -/
  busyLevel : List Bool
  /-- Waits on `E_BUSY`. -/
  busyWait : List WaitAnswer
  /-- The order of one poll's events, as a choice code. -/
  eventOrder : List (List Nat)
  deriving DecidableEq, Repr

/-- The state: the three units (R22 to R38), the result ports (R20), and the model's own fields. -/
structure State where
  /-- BBC buffer `buf`; `len` is its size (R22). -/
  buf : Memory
  /-- BBC cursor `cur`, u64 (R22, D4). -/
  cur : BitVec 64
  /-- BBC byte order `bend` (R22). -/
  bend : Endian
  /-- `table`, `cfg`, `locked` of TES (R26 to R28). -/
  touch : TouchUnit
  /-- `t_ready` (R29). -/
  tReady : Bool
  /-- The ERS state of R31 to R37. -/
  panel : PanelUnit
  /-- `e_ready` (R38). -/
  eReady : Bool
  /-- Result port `ST` (R20). -/
  st : BitVec 8
  /-- Result port `R` (R20). -/
  r : BitVec 64
  /-- Result port `DOUT` (R20). -/
  dout : List Byte
  /-- The operations the host has presented and the block has not taken yet, the next first (R12, R15). -/
  requests : List Request
  /-- The outward trace so far, the oldest record first (R10). -/
  trace : List Record
  /-- The environment's given answers (R10). -/
  answers : Answers
  /-- How many draws were made: the argument of the free values. -/
  drawn : Nat
  /-- The parameters (R7); no instruction writes them. -/
  par : Params
  deriving DecidableEq, Repr

/-- Block reset (R50, R330). The values the spec leaves unspecified are named in notes/assumptions/7.md. -/
def State.reset : State where
  buf := ⟨[]⟩
  cur := 0
  bend := .little
  touch := ⟨[], ⟨0, 0, 0⟩, false⟩
  tReady := false
  panel := ⟨.partialMode, .noPolicy, 0, 0, false, 1, 1⟩
  eReady := false
  st := 0
  r := 0
  dout := []
  requests := []
  trace := []
  answers := ⟨[], [], [], [], [], [], []⟩
  drawn := 0
  par := Params.defaults

/-- How a piece of an operation ends: it goes on with a value and a state; it raises an error at a state (R296); it
never ends; or the spec gives it no result. -/
inductive Res (α : Type) where
  | ok (a : α) (s : State)
  | raised (e : Error) (s : State)
  | stuck (f : Fault)
  | refused (r : Refusal)
  deriving DecidableEq, Repr

/-- The result ports an operation defines (R93, R94); `none` is a port that is not valid after it. -/
structure Results where
  r : Option (BitVec 64)
  dout : Option (List Byte)
  deriving DecidableEq, Repr

end Sys2Proof.Machine
end

