-- ==== Sys2Proof/Machine/Flags.lean ====
section
/-! DEFINITION. The four flags of 10_state.md R24 and the decisions read from the refresh state: who sets and clears
them, the readiness gates of R299, and the budget test of 43_eink_scheduler.md R252. -/

namespace Sys2Proof.Machine

/-- Sequencing: the next piece runs only where this one goes on (R296: nothing catches an error). -/
def Res.bind {α β : Type} (x : Res α) (k : α → State → Res β) : Res β :=
  match x with
  | .ok a s => k a s
  | .raised e s => .raised e s
  | .stuck f => .stuck f
  | .refused r => .refused r

/-- Pieces one after another, in the order of the list (R9, R70). -/
def inOrder : List (State → Res Unit) → State → Res Unit
  | [], s => .ok () s
  | p :: rest, s => (p s).bind fun _ s' => inOrder rest s'

/-- `t_ready <- b` (R24). -/
def State.setTReady (s : State) (b : Bool) : State := { s with tReady := b }

/-- `e_ready <- b` (R24). -/
def State.setEReady (s : State) (b : Bool) : State := { s with eReady := b }

/-- `locked <- b` (R24). -/
def State.setLocked (s : State) (b : Bool) : State := { s with touch := { s.touch with locked := b } }

/-- `auto_refreshing <- b` (R24). -/
def State.setAutoRefreshing (s : State) (b : Bool) : State :=
  { s with panel := { s.panel with autoRefreshing := b } }

/-- `refresh_mode <- m` (R31). -/
def State.setRefreshMode (s : State) (m : RefreshMode) : State :=
  { s with panel := { s.panel with refreshMode := m } }

/-- `auto_refresh_mode <- p` (R32). -/
def State.setAutoRefreshMode (s : State) (p : RefreshPolicy) : State :=
  { s with panel := { s.panel with autoRefreshMode := p } }

/-- `partial_refresh_count <- n` (R33). -/
def State.setPartialCount (s : State) (n : BitVec 32) : State :=
  { s with panel := { s.panel with partialRefreshCount := n } }

/-- `max_partial_refreshes <- n` (R34). -/
def State.setMaxPartial (s : State) (n : BitVec 32) : State :=
  { s with panel := { s.panel with maxPartialRefreshes := n } }

/-- `(W, H) <- operands` (R37). -/
def State.setSize (s : State) (w h : BitVec 16) : State :=
  { s with panel := { s.panel with width := w, height := h } }

/-- `table <- t` (R26). -/
def State.setTable (s : State) (t : List (BitVec 8 × TouchEvent)) : State :=
  { s with touch := { s.touch with table := t } }

/-- `cfg <- c` (R27). -/
def State.setCfg (s : State) (c : TouchConfig) : State := { s with touch := { s.touch with cfg := c } }

/-- "if not t_ready: raise NotReady" (R299). -/
def requireTouchReady (s : State) : Res Unit := if s.tReady then .ok () s else .raised .notReady s

/-- "if not e_ready: raise NotReady" (R299). -/
def requirePanelReady (s : State) : Res Unit := if s.eReady then .ok () s else .raised .notReady s

/-- "Exhausted means `partial_refresh_count >= max_partial_refreshes`" (R252). -/
def budgetExhausted (p : PanelUnit) : Bool :=
  decide (p.maxPartialRefreshes.toNat ≤ p.partialRefreshCount.toNat)

end Sys2Proof.Machine
end

