-- ==== Sys2Proof/Machine/Operands.lean ====
section
/-! DEFINITION. Byte order conversion, field parsing, event words, coordinates, bitmap rows, the constants of the
wire formats and the parameters as a rule reads them: everything computed from operands without touching state.
Spec: 40_codec.md R142; 30_encoding.md R91 to R109; 42_eink_sequencer.md R220 to R227; 00_scope.md R7, R11. -/

namespace Sys2Proof.Machine

/-! Byte order (R62, R142). -/

/-- The low `n` bytes of `v`, least significant first. -/
def bytesLE : Nat → Nat → List Byte
  | 0, _ => []
  | n + 1, v => BitVec.ofNat 8 v :: bytesLE n (v / 256)

/-- `Bytes(v, n, e)` of R142. -/
def bytesOf (e : Endian) (n v : Nat) : List Byte :=
  match e with
  | .little => bytesLE n v
  | .big => (bytesLE n v).reverse

/-- The value of bytes read least significant first. -/
def valLE : List Byte → Nat
  | [] => 0
  | b :: s => b.toNat + 256 * valLE s

/-- `Val(s, e)` of R142. -/
def valOf (e : Endian) (s : List Byte) : Nat :=
  match e with
  | .little => valLE s
  | .big => valLE s.reverse

/-- The source's words for a read: "copies `sizeof(T)` bytes at the cursor, converts endianness if buffer
endianness ≠ host endianness", then takes them as a value of the host. Equal to `valOf bend` for either host (R62);
kept to state that. -/
def valViaHost (host bend : Endian) (s : List Byte) : Nat :=
  valOf host (if bend = host then s else s.reverse)

/-- The source's words for a write, as `valViaHost` for a read (R62). -/
def bytesViaHost (host bend : Endian) (n v : Nat) : List Byte :=
  if bend = host then bytesOf host n v else (bytesOf host n v).reverse

/-! Parameters as the rules read them (R7). -/

/-- `HOST_ENDIAN`. -/
def hostEndian (p : Params) : Endian := p.hostEndian.getD Config.hostEndian

/-- `TOUCH_DEV_ADDR`. -/
def touchDevAddr (p : Params) : Nat := p.touchDevAddr.getD Config.touchDevAddr

/-- `EPD_HW_RESET_SEQ`. -/
def epdHwResetSeq (p : Params) : List ResetAction := p.epdHwResetSeq.getD Config.epdHwResetSeq

/-- `EPD_DIM_ARG`. -/
def epdDimArg (p : Params) : Byte := p.epdDimArg.getD Config.epdDimArg

/-- The payload listed for a size, if one is. -/
def lookupDocPayload (w h : BitVec 16) : List (BitVec 16 × BitVec 16 × List Byte) → Option (List Byte)
  | [] => none
  | (w', h', d) :: rest => if w' = w ∧ h' = h then some d else lookupDocPayload w h rest

/-- `EPD_DOC_PAYLOAD(W, H)`. -/
def epdDocPayload (p : Params) (w h : BitVec 16) : List Byte :=
  (lookupDocPayload w h p.epdDocPayload).getD (Config.epdDocPayload w h)

/-- `EPD_DEFAULT_MAX_PARTIAL`. -/
def epdDefaultMaxPartial (p : Params) : BitVec 32 := p.epdDefaultMaxPartial.getD Config.epdDefaultMaxPartial

/-- `OFFSET_BASE_W`, default `W` (D30). -/
def offsetBaseW (p : Params) (w : BitVec 16) : Int := p.offsetBaseW.getD w.toNat

/-- `OFFSET_BASE_H`, default `H` (D30). -/
def offsetBaseH (p : Params) (h : BitVec 16) : Int := p.offsetBaseH.getD h.toNat

/-! Touch constants and registers (R66, R101, R106, R170, R181). -/

/-- `TOUCH_ID_EXPECT`: "1158" (R101). -/
def touchIdExpect : List Byte := [0x31, 0x31, 0x35, 0x38]

/-- `TOUCH_MAX_COUNT` (R181). -/
def touchMaxCount : Nat := 5

/-- ID register (R170). -/
def regId : BitVec 16 := 0x8140

/-- Config register (R170). -/
def regConfig : BitVec 16 := 0x8051

/-- Touch status register (R170). -/
def regTouchStatus : BitVec 16 := 0x814e

/-- Lock control register (R170). -/
def regLockControl : BitVec 16 := 0x8040

/-- Lock status register (R170). -/
def regLockStatus : BitVec 16 := 0x814c

/-- The payload "to enter locked mode" (R106). -/
def lockPayload : List Byte := [0x08, 0x00, 0xf8]

/-- "the value 0xcc means unlock gesture detected" (R106). -/
def unlockStatus : Byte := 0xcc

/-- `register_bytes`: `to_be(u16 reg)` (R100). -/
def registerBytes (reg : BitVec 16) : List Byte := bytesOf .big 2 reg.toNat

/-! Private codec: reads least significant byte first from the front of what is left of an answer (R171). -/

/-- A read of `n` bytes: the value and what is left, or none where the answer runs out. -/
def takeField (n : Nat) (s : List Byte) : Option (Nat × List Byte) :=
  if s.length < n then none else some (valLE (s.take n), s.drop n)

/-- One record: u8, u16, u16, u16, then a seek of +1 over the reserved byte (R104, R182). -/
def takeRecord (s : List Byte) : Option (TouchRecord × List Byte) :=
  (takeField 1 s).bind fun p =>
  (takeField 2 p.2).bind fun px =>
  (takeField 2 px.2).bind fun py =>
  (takeField 2 py.2).bind fun ps =>
  (takeField 1 ps.2).bind fun rest =>
  some (⟨BitVec.ofNat 8 p.1, BitVec.ofNat 16 px.1, BitVec.ofNat 16 py.1, BitVec.ofNat 16 ps.1⟩, rest.2)

/-- `count` records one after another. -/
def takeRecords : Nat → List Byte → Option (List TouchRecord)
  | 0, _ => some []
  | k + 1, s => (takeRecord s).bind fun p => (takeRecords k p.2).bind fun rs => some (p.1 :: rs)

/-- A touch frame: the leading status byte is skipped, uncompared, then the records (R105, R182). -/
def parseFrame (count : Nat) (frame : List Byte) : Option (List TouchRecord) :=
  (takeField 1 frame).bind fun p => takeRecords count p.2

/-! Events (R11, R25, R95). -/

/-- The event a record becomes under a classification. -/
def eventOf (k : EventKind) (r : TouchRecord) : TouchEvent := ⟨k, r.touchId, r.x, r.y, r.size⟩

/-- `differs(e1, e2)`: "`kind` is excluded from this comparison" (R11). -/
def differs (e1 e2 : TouchEvent) : Bool :=
  e1.touchId != e2.touchId || e1.x != e2.x || e1.y != e2.y || e1.size != e2.size

/-- The numbering of the kinds (R95). -/
def kindCode : EventKind → BitVec 8
  | .absent => 0
  | .touch => 1
  | .drag => 2
  | .release => 3
  | .unlock => 4

/-- The 64-bit event word (R95). -/
def eventWord (e : TouchEvent) : BitVec 64 := e.size ++ e.y ++ e.x ++ e.touchId ++ kindCode e.kind

/-- `DOUT` of a poll: "k event words of 8 bytes each, each word least significant byte first" (R94). -/
def eventBytes (es : List TouchEvent) : List Byte := es.flatMap fun e => bytesOf .little 8 (eventWord e).toNat

/-- Take out the element at a position. -/
def pick {α : Type} (d : α) : Nat → List α → α × List α
  | _, [] => (d, [])
  | 0, x :: xs => (x, xs)
  | n + 1, x :: xs => let p := pick d n xs; (p.1, x :: p.2)

/-- A list in the order a choice code names: each code entry, modulo what is left, says which element comes next.
Every code gives a permutation and every permutation has a code, so a free code is a free order (R186, D17). -/
def arrangeN {α : Type} : Nat → List Nat → List α → List α
  | 0, _, l => l
  | _ + 1, _, [] => []
  | _ + 1, _, [x] => [x]
  | n + 1, code, x :: y :: l =>
    let p := pick x (code.headD 0 % (l.length + 2)) (x :: y :: l)
    p.1 :: arrangeN n code.tail p.2

/-- A list in the order of a choice code. -/
def arrange {α : Type} (code : List Nat) (l : List α) : List α := arrangeN l.length code l

/-! The Track Table as a list in ascending order of id (R26). -/

/-- The entry of an id. -/
def tableFind (i : BitVec 8) : List (BitVec 8 × TouchEvent) → Option TouchEvent
  | [] => none
  | (j, e) :: t => if j = i then some e else tableFind i t

/-- `table[i] <- e`. -/
def tableSet (i : BitVec 8) (e : TouchEvent) : List (BitVec 8 × TouchEvent) → List (BitVec 8 × TouchEvent)
  | [] => [(i, e)]
  | (j, d) :: t =>
    if i.toNat < j.toNat then (i, e) :: (j, d) :: t
    else if j = i then (i, e) :: t
    else (j, d) :: tableSet i e t

/-- The ids present: `dom(table)`. -/
def tableIds (t : List (BitVec 8 × TouchEvent)) : List (BitVec 8) := t.map Prod.fst

/-- An event with its kind changed to Release (R181, R186). -/
def released (e : TouchEvent) : TouchEvent := { e with kind := .release }

/-- One record against the table: Drag where it differs, nothing where it does not, Touch for a new id; the second
component is the ids marked updated so far (R183 to R185). -/
def classifyRecord (r : TouchRecord) (acc : List (BitVec 8 × TouchEvent) × List (BitVec 8)) :
    List (BitVec 8 × TouchEvent) × List (BitVec 8) :=
  match tableFind r.touchId acc.1 with
  | some e =>
    if differs (eventOf .drag r) e
    then (tableSet r.touchId (eventOf .drag r) acc.1, acc.2 ++ [r.touchId]) else acc
  | none => (tableSet r.touchId (eventOf .touch r) acc.1, acc.2 ++ [r.touchId])

/-- All records, in frame order (R182). -/
def classifyRecords (rs : List TouchRecord) (table : List (BitVec 8 × TouchEvent)) :
    List (BitVec 8 × TouchEvent) × List (BitVec 8) :=
  rs.foldl (fun acc r => classifyRecord r acc) (table, [])

/-- The entries whose id no record of the frame reports: `gone` of R186, with their entries. -/
def goneEntries (rs : List TouchRecord) (table : List (BitVec 8 × TouchEvent)) : List (BitVec 8 × TouchEvent) :=
  table.filter fun p => !((rs.map TouchRecord.touchId).contains p.1)

/-- A valid frame against the table: the table after the poll and the poll's events (R183 to R186). The events of
the updated ids come first and the Release events after them; the order is arranged later. -/
def classifyFrame (rs : List TouchRecord) (table : List (BitVec 8 × TouchEvent)) :
    List (BitVec 8 × TouchEvent) × List TouchEvent :=
  let acc := classifyRecords rs table
  (acc.1.filter fun p => (rs.map TouchRecord.touchId).contains p.1,
    acc.2.filterMap (fun i => tableFind i acc.1) ++ (goneEntries rs table).map fun p => released p.2)

/-! Result words (R94). -/

/-- `R` of `T.CFG`. -/
def cfgWord (c : TouchConfig) : BitVec 64 := (0 : BitVec 24) ++ c.maxTouchPoints ++ c.maxY ++ c.maxX

/-- `R` of `E.GEOM`: position (0, 0), size (W-1, H-1) (R219). -/
def geometryWord (p : PanelUnit) : BitVec 64 :=
  (p.height - 1) ++ (p.width - 1) ++ (0 : BitVec 16) ++ (0 : BitVec 16)

/-- The operand of `T.WAIT`: `2^64 - 1` is unset (R92). -/
def timeoutOfPort (a : BitVec 64) : Timeout := if a = BitVec.allOnes 64 then .unset else .ms a.toNat

/-! Panel opcodes and payloads (R108). -/

/-- The payload of `DisplayUpdateControl2` (R215). -/
def updateModePayload (m : RefreshMode) : List Byte :=
  match m with
  | .fullMode => [0xf7]
  | .partialMode => [0xff]

/-- The payload of `BorderWaveformControl` (R214). -/
def borderPayload (m : RefreshMode) : List Byte :=
  match m with
  | .fullMode => [0x05]
  | .partialMode => [0x80]

/-- An X byte address: `(x >> 3) & 0xff` (R220, R221). -/
def xByte (x : Nat) : Byte := BitVec.ofNat 8 (x / 8)

/-- The payload of `DrawRegionX` (R220). -/
def drawRegionXPayload (x0 x1 : Nat) : List Byte := [xByte x0, xByte x1]

/-- The payload of `DrawRegionY` (R220). -/
def drawRegionYPayload (y0 y1 : Nat) : List Byte := bytesLE 2 y0 ++ bytesLE 2 y1

/-- The payload of `DrawOffsetX` (R221). -/
def drawOffsetXPayload (ox : Nat) : List Byte := [xByte ox]

/-- The payload of `DrawOffsetY` (R221). -/
def drawOffsetYPayload (oy : Nat) : List Byte := bytesLE 2 oy

/-! Coordinates and bitmaps (R44, R222 to R227). -/

/-- `ceil(width/8)`: the bytes of one row of pixels (R44). -/
def rowStride (width : Nat) : Nat := (width + 7) / 8

/-- `UniformFrame(to_black)` (R224). -/
def uniformFrame (toBlack : Bool) (p : PanelUnit) : List Byte :=
  List.replicate (rowStride p.width.toNat * p.height.toNat) (if toBlack then 0x00 else 0xff)

/-- "well formed iff `len(DIN) = ceil(bw/8) * bh`" (R225). -/
def bitmapOk (bw bh : BitVec 16) (din : List Byte) : Bool :=
  decide (din.length = rowStride bw.toNat * bh.toNat)

/-- The overlap of a placed bitmap with the display, in inclusive pixel coordinates (R226). -/
structure Overlap where
  cx0 : Int
  cy0 : Int
  cx1 : Int
  cy1 : Int
  deriving DecidableEq, Repr

/-- `Overlap(px, py, bw, bh)` (R226). -/
def overlapOf (p : PanelUnit) (px py : Int) (bw bh : BitVec 16) : Overlap where
  cx0 := max px 0
  cy0 := max py 0
  cx1 := min (px + bw.toNat - 1) (p.width.toNat - 1)
  cy1 := min (py + bh.toNat - 1) (p.height.toNat - 1)

/-- "empty <- (cx0 > cx1) or (cy0 > cy1)" (R226). -/
def overlapEmpty (o : Overlap) : Bool := decide (o.cx1 < o.cx0) || decide (o.cy1 < o.cy0)

/-- `cw` (R226). -/
def overlapWidth (o : Overlap) : Nat := (o.cx1 - o.cx0 + 1).toNat

/-- `ch` (R226). -/
def overlapHeight (o : Overlap) : Nat := (o.cy1 - o.cy0 + 1).toNat

/-- `fits` (R226). -/
def overlapFits (o : Overlap) (px py : Int) (bw bh : BitVec 16) : Bool :=
  decide (o.cx0 = px) && decide (o.cy0 = py) && decide (overlapWidth o = bw.toNat) &&
    decide (overlapHeight o = bh.toNat)

/-- `RowOffset(x, y, row)`, on unbounded integers (R222). -/
def rowOffset (par : Params) (p : PanelUnit) (x y : Int) (row : Nat) : Int × Int :=
  (offsetBaseW par p.width - 2 - x, offsetBaseH par p.height - row - y)

/-- Where `RowOffset` has a result: "If `ox < 0`, or `oy < 0`, or `oy > 65535`, the source gives no result" (R222). -/
def rowOffsetOk (o : Int × Int) : Bool := decide (0 ≤ o.1) && decide (0 ≤ o.2) && decide (o.2 ≤ 65535)

/-- Whether every row of a region has an offset; it "depends only on `cx0`, `cy0`, `ch`" (R228). -/
def regionOffsetsOk (par : Params) (p : PanelUnit) (o : Overlap) : Bool :=
  overlapEmpty o || (List.range (overlapHeight o)).all fun r => rowOffsetOk (rowOffset par p o.cx0 o.cy0 r)

/-- Pixel `(x, y)` of a bitmap `bw` pixels wide: bit `7 - (x mod 8)` of byte `ceil(bw/8)*y + floor(x/8)` (R44). Inside
a well-formed bitmap the byte exists (R225). -/
def bitmapPixel (bw : Nat) (din : List Byte) (x y : Nat) : Bool :=
  (din.getD (rowStride bw * y + x / 8) 0).getLsbD (7 - x % 8)

/-- Eight pixels as a byte, the leftmost the most significant bit (R44). -/
def packByte (px : Nat → Bool) : Byte :=
  (List.range 8).foldl (fun b j => b ||| (BitVec.ofBool (px j)).setWidth 8 <<< (7 - j)) 0

/-- Byte `k` of a cropped row: pixel `(cx0 - px + 8k + j, cy0 - py + r)` at bit `7-j` while `8k + j < cw`, and
`CROP_PAD_BIT` beyond (R227). -/
def croppedByte (pad : Bool) (o : Overlap) (px py : Int) (bw : BitVec 16) (din : List Byte) (r k : Nat) : Byte :=
  packByte fun j =>
    if 8 * k + j < overlapWidth o
    then bitmapPixel bw.toNat din ((o.cx0 - px).toNat + 8 * k + j) ((o.cy0 - py).toNat + r) else pad

/-- `RowBytes(r)` (R227). -/
def rowBytes (pad : Bool) (o : Overlap) (px py : Int) (bw bh : BitVec 16) (din : List Byte) (r : Nat) : List Byte :=
  if overlapFits o px py bw bh
  then (din.drop (r * rowStride bw.toNat)).take (rowStride bw.toNat)
  else (List.range (rowStride (overlapWidth o))).map (croppedByte pad o px py bw din r)

end Sys2Proof.Machine
end

