-- ==== Sys2Proof/Machine/Ops.lean ====
section
/-! DEFINITION. The named operations: the buffer, the draws and the trace, the environment's calls (00_scope.md R9),
raising an error as one shared operation and how an operation presents its results (60_exceptions.md R296), and the
request port. -/

namespace Sys2Proof.Machine

/-! The BBC buffer (20_memory.md R61). -/

/-- Bytes as cells from an offset on. -/
def cellsFrom : Nat → List Byte → List Host.Cell
  | _, [] => []
  | a, b :: s => (a, b) :: cellsFrom (a + 1) s

/-- The buffer of a byte sequence: offsets 0, 1, 2, …. -/
def Memory.ofBytes (bs : List Byte) : Memory := ⟨cellsFrom 0 bs⟩

/-- The byte sequence of a buffer. -/
def Memory.toBytes (m : Memory) : List Byte := m.cells.map Prod.snd

/-- `len` (R22). -/
def Memory.size (m : Memory) : Nat := m.cells.length

/-- The byte at an offset, if the offset is below `len`: an unlisted offset holds no byte (R60). -/
def Memory.readByte (m : Memory) (a : Nat) : Option Byte := (m.cells.find? fun c => c.1 == a).map Prod.snd

/-- `MemRead(addr, n)`: `buf[addr .. addr+n)` (R61). -/
def Memory.memRead (m : Memory) (addr n : Nat) : List Byte := (m.toBytes.drop addr).take n

/-- `MemWrite(addr, n, s)`: those bytes replaced by `s` (R61). -/
def Memory.memWrite (m : Memory) (addr : Nat) (s : List Byte) : Memory :=
  Memory.ofBytes (m.toBytes.take addr ++ s ++ m.toBytes.drop (addr + s.length))

/-- `buf <- buf ++ s` (R143). -/
def Memory.append (m : Memory) (s : List Byte) : Memory := Memory.ofBytes (m.toBytes ++ s)

/-! Trace and draws (R10). -/

/-- `Emit(e)`: appends one record to the outward trace (R9). -/
def State.emit (s : State) (e : Record) : State := { s with trace := s.trace ++ [e] }

/-- The answers still queued after a draw; the draw counter moves on. -/
def State.afterDraw (s : State) (a : Answers) : State := { s with answers := a, drawn := s.drawn + 1 }

/-- The next answer to a register read. -/
def State.nextRegRead (s : State) : Option (List Byte) := s.answers.regRead.headD (Config.freeRegRead s.drawn)

/-- The next answer to a register write. -/
def State.nextRegWrite (s : State) : Bool := s.answers.regWrite.headD (Config.freeRegWrite s.drawn)

/-- The next answer to a streaming write. -/
def State.nextSpiWrite (s : State) : Bool := s.answers.spiWrite.headD (Config.freeSpiWrite s.drawn)

/-- The next answer to a wait on `T_INT`. -/
def State.nextTouchWait (s : State) : WaitAnswer := s.answers.touchWait.headD (Config.freeTouchWait s.drawn)

/-- The next level of `E_BUSY`. -/
def State.nextBusyLevel (s : State) : Bool := s.answers.busyLevel.headD (Config.freeBusyLevel s.drawn)

/-- The next answer to a wait on `E_BUSY`. -/
def State.nextBusyWait (s : State) : WaitAnswer := s.answers.busyWait.headD (Config.freeBusyWait s.drawn)

/-- The next choice code for an event order. -/
def State.nextEventOrder (s : State) : List Nat := s.answers.eventOrder.headD (Config.freeEventOrder s.drawn)

/-! The register transport (R9): "Either may `raise TransportError`". -/

/-- `RegRead(reg, n)`: the answer's bytes, whatever their number (D23). -/
def regRead (reg : BitVec 16) (n : Nat) (s : State) : Res (List Byte) :=
  let s' := (s.afterDraw { s.answers with regRead := s.answers.regRead.tail }).emit
    (.i2cRead (touchDevAddr s.par) (registerBytes reg) n s.nextRegRead)
  match s.nextRegRead with
  | some bytes => .ok bytes s'
  | none => .raised (.transportError .touchUnit) s'

/-- `RegWrite(reg, payload)`. -/
def regWrite (reg : BitVec 16) (payload : List Byte) (s : State) : Res Unit :=
  let s' := (s.afterDraw { s.answers with regWrite := s.answers.regWrite.tail }).emit
    (.i2cWrite (touchDevAddr s.par) (registerBytes reg) payload s.nextRegWrite)
  if s.nextRegWrite then .ok () s' else .raised (.transportError .touchUnit) s'

/-- A field of an answer through the private codec: "If an answer is shorter than the fields read from it, the
codec's `OutOfRange` propagates" (R171). -/
def fieldOr {α : Type} (field : Option α) (s : State) : Res α :=
  match field with
  | some a => .ok a s
  | none => .raised .outOfRange s

/-- The first `n` bytes of an answer: "Shorter: … raises `OutOfRange` … Longer: trailing bytes are ignored" (D23). -/
def exactly (n : Nat) (bytes : List Byte) : Option (List Byte) :=
  if bytes.length < n then none else some (bytes.take n)

/-- `RegRead(reg, n)` and its `n` bytes. -/
def regReadExact (reg : BitVec 16) (n : Nat) (s : State) : Res (List Byte) :=
  (regRead reg n s).bind fun bytes s1 => fieldOr (exactly n bytes) s1

/-- `RegRead(reg, 1)[0]`. -/
def regReadByte (reg : BitVec 16) (s : State) : Res Byte :=
  (regReadExact reg 1 s).bind fun bytes s1 => .ok (bytes.headD 0) s1

/-! The streaming transport and the lines (R9). -/

/-- `SpiWrite(bytes)`. -/
def spiWrite (bytes : List Byte) (s : State) : Res Unit :=
  let s' := (s.afterDraw { s.answers with spiWrite := s.answers.spiWrite.tail }).emit
    (.spiWrite bytes s.nextSpiWrite)
  if s.nextSpiWrite then .ok () s' else .raised (.transportError .panelUnit) s'

/-- `L.set(b)`; never fails (D47). -/
def lineSet (line : Line) (level : Bool) (s : State) : Res Unit := .ok () (s.emit (.lineSet line level))

/-- `L.drain()` (R48). -/
def lineDrain (line : Line) (s : State) : Res Unit := .ok () (s.emit (.lineDrain line))

/-- `Pause(ms)`. -/
def pause (ms : Nat) (s : State) : Res Unit := .ok () (s.emit (.pause ms))

/-- How a wait ends: "a blocked wait can only be unblocked by the event firing or the timeout elapsing" (R306), so a
wait that is never answered ends by its timeout, and with the timeout unset does not end. DESIGN CHOICE
(notes/assumptions/18.md): a wait with the timeout unset that is answered `expired` ends with false. -/
def waitResult (timeout : Timeout) (answer : WaitAnswer) : Option Bool :=
  match answer, timeout with
  | .fired, _ => some true
  | .expired, _ => some false
  | .never, .ms _ => some false
  | .never, .unset => none

/-- A wait on a line, at the state after its draw. -/
def lineWait (line : Line) (timeout : Timeout) (answer : WaitAnswer) (s : State) : Res Bool :=
  match waitResult timeout answer with
  | some b => .ok b (s.emit (.lineWait line timeout b))
  | none => .stuck .waitNeverAnswered

/-- `T_INT.wait(timeout)` (R180, R187). -/
def touchWait (timeout : Timeout) (s : State) : Res Bool :=
  lineWait .tInt timeout s.nextTouchWait (s.afterDraw { s.answers with touchWait := s.answers.touchWait.tail })

/-- `E_BUSY.get()`. -/
def busyGet (s : State) : Res Bool :=
  .ok s.nextBusyLevel ((s.afterDraw { s.answers with busyLevel := s.answers.busyLevel.tail }).emit
    (.lineGet .eBusy s.nextBusyLevel))

/-- `E_BUSY.wait(timeout)`. -/
def busyWait (timeout : Timeout) (s : State) : Res Bool :=
  lineWait .eBusy timeout s.nextBusyWait (s.afterDraw { s.answers with busyWait := s.answers.busyWait.tail })

/-- The events of a poll in an order of the implementation's own (R186, D17). -/
def orderEvents (es : List TouchEvent) (s : State) : Res (List TouchEvent) :=
  .ok (arrange s.nextEventOrder es) (s.afterDraw { s.answers with eventOrder := s.answers.eventOrder.tail })

/-! Ending an operation (R290, R296). -/

/-- The codes on `ST` (R290). -/
def errorCode : Error → BitVec 8
  | .transportError _ => 1
  | .protocolMismatch => 2
  | .outOfRange => 3
  | .capacityExceeded => 4
  | .illegalOp => 5
  | .notReady => 6

/-- What an error does to the state of the unit that raised it: "cleared by any `TransportError` or
`ProtocolMismatch` raised in that unit" (R299); after a `TransportError` "every piece of its state except the ready
flag … holds an unspecified value" (R300). -/
def State.errorState (s : State) : Error → State
  | .transportError .touchUnit => { s with tReady := false, touch := Config.freeTouchUnit s.drawn }
  | .transportError .panelUnit => { s with eReady := false, panel := Config.freePanelUnit s.drawn }
  | .protocolMismatch => { s with tReady := false }
  | .outOfRange | .capacityExceeded | .illegalOp | .notReady => s

/-- The result ports of an ended operation: a port the operation does not define has a free value (R93, R296). -/
def State.setPorts (s : State) (code : BitVec 8) (res : Results) : State :=
  { s with
    st := code
    r := res.r.getD (Config.freeResult s.drawn)
    dout := res.dout.getD (Config.freeDout s.drawn)
    drawn := s.drawn + 1 }

/-- No valid result port. -/
def noResults : Results := ⟨none, none⟩

/-- `raise E` as the operation's end: `ST <- code(E)`, "`R` and `DOUT` are unspecified", effects already performed
stay (R296). There is no handler and nothing to return from (R301): the next request is accepted as usual. -/
def State.raise (s : State) (e : Error) : State := (s.errorState e).setPorts (errorCode e) noResults

/-- The normal end: `ST` is 0 and the operation's ports are valid (R93, R290). -/
def State.present (s : State) (res : Results) : State := s.setPorts 0 res

/-- The outcome of a whole operation. -/
def Res.complete (x : Res Results) : Host.Outcome State Fault Refusal :=
  match x with
  | .ok res s => .next (s.present res)
  | .raised e s => .next (s.raise e)
  | .stuck f => .fault f
  | .refused r => .refused r

/-- An operation without result ports. -/
def Res.silent (x : Res Unit) : Res Results := x.bind fun _ s => .ok noResults s

/-- An operation that returns a scalar on `R`. -/
def withR (v : BitVec 64) (s : State) : Res Results := .ok ⟨some v, none⟩ s

/-- An operation that returns bytes on `DOUT`. -/
def withDout (bytes : List Byte) (s : State) : Res Results := .ok ⟨none, some bytes⟩ s

/-! The request port (R20, R90). -/

/-- The next request and the state with it taken, if the host has presented one. -/
def fetch (s : State) : Option (Request × State) :=
  match s.requests with
  | [] => none
  | q :: rest => some (q, { s with requests := rest })

/-- A request that is no instruction: a reserved `CW` raises `IllegalOp` "with no state change and no outward
transaction" (R96); at primitive grain the block never issues one. -/
def rejectRequest (q : Request) (s : State) : Host.Outcome State Fault Refusal :=
  match q.chan with
  | .host => .next (s.raise .illegalOp)
  | .panel | .touch => .refused .notAWireCommand

/-- The state with a request presented as the next one. -/
def State.presentRequest (s : State) (q : Request) : State := { s with requests := q :: s.requests }

end Sys2Proof.Machine
end

