-- ==== Sys2Proof/Machine/Codec.lean ====
section
/-! DEFINITION. The meanings of unit BBC (40_codec.md R140 to R149). -/

namespace Sys2Proof.Machine

/-! Shared operations. -/

/-- `B.WRAP` (R140). -/
def wrapBuffer (e : Endian) (din : List Byte) (s : State) : Res Results :=
  if s.par.bufMax.toNat < din.length then .raised .capacityExceeded s
  else .ok noResults { s with buf := Memory.ofBytes din, bend := e, cur := 0 }

/-- `B.READ` of `n` bytes (R141). -/
def readBuffer (n : Nat) (s : State) : Res Results :=
  if s.buf.size - s.cur.toNat < n then .raised .outOfRange s
  else withR (BitVec.ofNat 64 (valOf s.bend (s.buf.memRead s.cur.toNat n)))
    { s with cur := BitVec.ofNat 64 (s.cur.toNat + n) }

/-- The buffer grown "to exactly accommodate the write" by arbitrary bytes (R143). -/
def growBuffer (n : Nat) (s : State) : Memory :=
  if s.buf.size - s.cur.toNat < n
  then s.buf.append ((List.range (s.cur.toNat + n - s.buf.size)).map (Config.growthByte s.drawn))
  else s.buf

/-- `B.WRITE` of the value `v` in `n` bytes (R143). -/
def writeBuffer (n v : Nat) (s : State) : Res Results :=
  if s.par.bufMax.toNat < s.cur.toNat + n then .raised .capacityExceeded s
  else .ok noResults
    { s with
      buf := (growBuffer n s).memWrite s.cur.toNat (bytesOf s.bend n v)
      cur := BitVec.ofNat 64 (s.cur.toNat + n) }

/-- The origin a seek counts from (R145). -/
def seekBase (o : Origin) (s : State) : Int :=
  match o with
  | .fromBegin => 0
  | .fromCurrent => s.cur.toNat
  | .fromEnd => s.buf.size

/-- `B.SEEK`, "unbounded integer arithmetic" (R145). -/
def seekBuffer (o : Origin) (off : BitVec 64) (s : State) : Res Results :=
  if seekBase o s + off.toInt < 0 ∨ (s.buf.size : Int) < seekBase o s + off.toInt then .raised .outOfRange s
  else .ok noResults { s with cur := BitVec.ofInt 64 (seekBase o s + off.toInt) }

/-! One definition for each row. -/

/-- `B.TOBE.1` (R147). -/
def execBTobe1 (v : BitVec 8) (s : State) : Host.Outcome State Fault Refusal :=
  (withDout (bytesOf .big 1 v.toNat) s).complete

/-- `B.TOBE.2` (R147). -/
def execBTobe2 (v : BitVec 16) (s : State) : Host.Outcome State Fault Refusal :=
  (withDout (bytesOf .big 2 v.toNat) s).complete

/-- `B.TOBE.4` (R147). -/
def execBTobe4 (v : BitVec 32) (s : State) : Host.Outcome State Fault Refusal :=
  (withDout (bytesOf .big 4 v.toNat) s).complete

/-- `B.TOBE.8` (R147). -/
def execBTobe8 (v : BitVec 64) (s : State) : Host.Outcome State Fault Refusal :=
  (withDout (bytesOf .big 8 v.toNat) s).complete

/-- `B.TOLE.1` (R148). -/
def execBTole1 (v : BitVec 8) (s : State) : Host.Outcome State Fault Refusal :=
  (withDout (bytesOf .little 1 v.toNat) s).complete

/-- `B.TOLE.2` (R148). -/
def execBTole2 (v : BitVec 16) (s : State) : Host.Outcome State Fault Refusal :=
  (withDout (bytesOf .little 2 v.toNat) s).complete

/-- `B.TOLE.4` (R148). -/
def execBTole4 (v : BitVec 32) (s : State) : Host.Outcome State Fault Refusal :=
  (withDout (bytesOf .little 4 v.toNat) s).complete

/-- `B.TOLE.8` (R148). -/
def execBTole8 (v : BitVec 64) (s : State) : Host.Outcome State Fault Refusal :=
  (withDout (bytesOf .little 8 v.toNat) s).complete

/-- `B.WRAP.LE` (R140). -/
def execBWrapLe (din : List Byte) (s : State) : Host.Outcome State Fault Refusal :=
  (wrapBuffer .little din s).complete

/-- `B.WRAP.BE` (R140). -/
def execBWrapBe (din : List Byte) (s : State) : Host.Outcome State Fault Refusal :=
  (wrapBuffer .big din s).complete

/-- `B.READ.1` (R141). -/
def execBRead1 (s : State) : Host.Outcome State Fault Refusal := (readBuffer 1 s).complete

/-- `B.READ.2` (R141). -/
def execBRead2 (s : State) : Host.Outcome State Fault Refusal := (readBuffer 2 s).complete

/-- `B.READ.4` (R141). -/
def execBRead4 (s : State) : Host.Outcome State Fault Refusal := (readBuffer 4 s).complete

/-- `B.READ.8` (R141). -/
def execBRead8 (s : State) : Host.Outcome State Fault Refusal := (readBuffer 8 s).complete

/-- `B.WRITE.1` (R143). -/
def execBWrite1 (v : BitVec 8) (s : State) : Host.Outcome State Fault Refusal := (writeBuffer 1 v.toNat s).complete

/-- `B.WRITE.2` (R143). -/
def execBWrite2 (v : BitVec 16) (s : State) : Host.Outcome State Fault Refusal := (writeBuffer 2 v.toNat s).complete

/-- `B.WRITE.4` (R143). -/
def execBWrite4 (v : BitVec 32) (s : State) : Host.Outcome State Fault Refusal := (writeBuffer 4 v.toNat s).complete

/-- `B.WRITE.8` (R143). -/
def execBWrite8 (v : BitVec 64) (s : State) : Host.Outcome State Fault Refusal := (writeBuffer 8 v.toNat s).complete

/-- `B.SEEK.BEG` (R145). -/
def execBSeekBeg (off : BitVec 64) (s : State) : Host.Outcome State Fault Refusal :=
  (seekBuffer .fromBegin off s).complete

/-- `B.SEEK.CUR` (R145). -/
def execBSeekCur (off : BitVec 64) (s : State) : Host.Outcome State Fault Refusal :=
  (seekBuffer .fromCurrent off s).complete

/-- `B.SEEK.END` (R145). -/
def execBSeekEnd (off : BitVec 64) (s : State) : Host.Outcome State Fault Refusal :=
  (seekBuffer .fromEnd off s).complete

/-- `B.TELL` (R146). -/
def execBTell (s : State) : Host.Outcome State Fault Refusal := (withR s.cur s).complete

/-- `B.DUMP` (R149). -/
def execBDump (s : State) : Host.Outcome State Fault Refusal := (withDout s.buf.toBytes s).complete

end Sys2Proof.Machine
end

