-- ==== Sys2Proof/Machine/Panel.lean ====
section
/-! DEFINITION. Unit ERS, the command sequencer (42_eink_sequencer.md R210 to R229): its procedures, and the meanings
of `E.INIT`, `E.SETSIZE`, `E.GEOM`, `E.POWEROFF`. -/

namespace Sys2Proof.Machine

/-! Commands on the wire. -/

/-- `SendCmd(op, payload)` (R211): the opcode with `E_DC` low, a non-empty payload with `E_DC` high. -/
def sendCmd (op : Byte) (payload : List Byte) (s : State) : Res Unit :=
  inOrder
    ([lineSet .eDc false, spiWrite [op]] ++
      if payload = [] then [] else [lineSet .eDc true, spiWrite payload]) s

/-- `wait_for_busy(BUSY_TIMEOUT)` (R212); the wait's boolean is discarded. -/
def waitForBusy (s : State) : Res Unit :=
  (busyGet s).bind fun busy s1 =>
  if busy = true then
    (lineDrain .eBusy s1).bind fun _ s2 =>
    (busyWait s2.par.busyTimeout s2).bind fun _ s3 => lineDrain .eBusy s3
  else .ok () s1

/-- One action of `EPD_HW_RESET_SEQ` (R213). -/
def resetAction (a : ResetAction) (s : State) : Res Unit :=
  match a with
  | .setLine level => lineSet .eRst level s
  | .pause ms => pause ms s

/-- `HwReset()` (R213). -/
def hwReset (s : State) : Res Unit := inOrder ((epdHwResetSeq s.par).map resetAction) s

/-- `SendCmd(0x01, EPD_DOC_PAYLOAD(W, H))` (R214). -/
def sendDriverOutputControl (s : State) : Res Unit :=
  sendCmd 0x01 (epdDocPayload s.par s.panel.width s.panel.height) s

/-- `SendCmd(0x11, {EPD_DIM_ARG})` (R214). -/
def sendDataInputMode (s : State) : Res Unit := sendCmd 0x11 [epdDimArg s.par] s

/-- The commands of `apply_config` that depend on the mode (R214). -/
def waveformCommands (mode : RefreshMode) : List (State → Res Unit) :=
  match mode with
  | .fullMode => [sendCmd 0x3c (borderPayload .fullMode), sendCmd 0x21 [0x00, 0x80], sendCmd 0x18 [0x80]]
  | .partialMode => [sendCmd 0x3c (borderPayload .partialMode)]

/-- `apply_config(mode)` (R214); it writes no block state. -/
def applyConfig (mode : RefreshMode) (s : State) : Res Unit :=
  inOrder
    ([hwReset, sendCmd 0x12 [], waitForBusy, sendDataInputMode, sendDriverOutputControl] ++
      waveformCommands mode ++ [waitForBusy]) s

/-- `refresh_display(mode)` (R215). -/
def refreshDisplay (mode : RefreshMode) (s : State) : Res Unit :=
  inOrder [sendCmd 0x22 (updateModePayload mode), sendCmd 0x20 [], waitForBusy] s

/-! Regions, offsets and uploads. -/

/-- `SetDrawRegion(x0, y0, x1, y1)` (R220). -/
def setDrawRegion (x0 y0 x1 y1 : Nat) (s : State) : Res Unit :=
  inOrder [sendCmd 0x44 (drawRegionXPayload x0 x1), sendCmd 0x45 (drawRegionYPayload y0 y1)] s

/-- `SetDrawOffset(ox, oy)` (R221). -/
def setDrawOffset (ox oy : Nat) (s : State) : Res Unit :=
  inOrder [sendCmd 0x4e (drawOffsetXPayload ox), sendCmd 0x4f (drawOffsetYPayload oy)] s

/-- `UploadFull(data)` (R223). -/
def uploadFull (data : List Byte) (s : State) : Res Unit :=
  inOrder
    [setDrawRegion 0 0 (s.panel.width.toNat - 1) (s.panel.height.toNat - 1),
     setDrawOffset 0 0,
     sendCmd 0x24 data] s

/-- One row of `UploadBitmap` (R228). -/
def uploadRow (o : Overlap) (px py : Int) (bw bh : BitVec 16) (din : List Byte) (r : Nat) (s : State) : Res Unit :=
  let off := rowOffset s.par s.panel o.cx0 o.cy0 r
  inOrder
    [setDrawOffset off.1.toNat off.2.toNat,
     sendCmd 0x24 [],
     lineSet .eDc true,
     spiWrite (rowBytes s.par.cropPadBit o px py bw bh din r)] s

/-- `UploadBitmap(px, py, bw, bh, DIN)` (R228); its refusal is decided before (R222). -/
def uploadBitmap (px py : Int) (bw bh : BitVec 16) (din : List Byte) (s : State) : Res Unit :=
  let o := overlapOf s.panel px py bw bh
  if overlapEmpty o then .ok () s
  else
    inOrder
      (setDrawRegion o.cx0.toNat o.cy0.toNat o.cx1.toNat o.cy1.toNat ::
        (List.range (overlapHeight o)).map (uploadRow o px py bw bh din)) s

/-! Initialisation, size, geometry, power. -/

/-- The configuration records of R216, in order. -/
def configRecords : List Record :=
  [.lineConfig .eRst .output .none,
   .lineConfig .eDc .output .none,
   .lineConfig .eBusy .input .falling,
   .spiConfig 8 .msbFirst 4 0 20000000 0]

/-- The records emitted one after another. -/
def emitAll (es : List Record) (s : State) : Res Unit := .ok () (es.foldl State.emit s)

/-- The ERS state `E.INIT` establishes (R217). -/
def initialPanel (par : Params) (w h : BitVec 16) : PanelUnit :=
  ⟨.partialMode, .noPolicy, 0, epdDefaultMaxPartial par, false, w, h⟩

/-- "if W = 0 or H = 0: raise OutOfRange" (R217, R218). -/
def requireSize (w h : BitVec 16) (s : State) : Res Unit :=
  if w = 0 ∨ h = 0 then .raised .outOfRange s else .ok () s

/-- `E.INIT` (R217). -/
def initPanel (w h : BitVec 16) (s : State) : Res Unit :=
  inOrder
    [requireSize w h,
     fun s1 => .ok () (s1.setEReady false),
     emitAll configRecords,
     fun s1 => .ok () { s1 with panel := initialPanel s1.par w h },
     applyConfig .partialMode,
     fun s1 => .ok () (s1.setEReady true)] s

/-- `E.INIT` (R217). -/
def execEInit (w h : BitVec 16) (s : State) : Host.Outcome State Fault Refusal := (initPanel w h s).silent.complete

/-- `E.SETSIZE` (R218). -/
def execESetsize (w h : BitVec 16) (s : State) : Host.Outcome State Fault Refusal :=
  (inOrder [requirePanelReady, requireSize w h, fun s1 => .ok () (s1.setSize w h)] s).silent.complete

/-- `E.GEOM` (R219). -/
def execEGeom (s : State) : Host.Outcome State Fault Refusal :=
  ((requirePanelReady s).bind fun _ s1 => withR (geometryWord s1.panel) s1).complete

/-- `E.POWEROFF` (R229). -/
def execEPoweroff (s : State) : Host.Outcome State Fault Refusal :=
  (inOrder [requirePanelReady, sendCmd 0x10 [0x01]] s).silent.complete

end Sys2Proof.Machine
end

