-- ==== Sys2Proof/Machine/Scheduler.lean ====
section
/-! DEFINITION. Unit ERS, the refresh scheduler (43_eink_scheduler.md R250 to R262): `pre_upload`, `post_upload`, and
the meanings of the operations that set the scheduler or upload. -/

namespace Sys2Proof.Machine

/-- `post_upload()` (R253). -/
def postUpload (s : State) : Res Unit :=
  if s.panel.refreshMode = .fullMode then refreshDisplay .fullMode s
  else if s.panel.autoRefreshMode = .noPolicy then refreshDisplay .partialMode s
  else if s.panel.autoRefreshing = true then
    if s.panel.autoRefreshMode = .fullRefresh then
      inOrder
        [refreshDisplay .fullMode,
         fun s1 => .ok () (s1.setPartialCount 0),
         fun s1 => .ok () (s1.setAutoRefreshing false),
         applyConfig .partialMode] s
    else
      inOrder
        [refreshDisplay .partialMode,
         fun s1 => .ok () (s1.setPartialCount 0),
         fun s1 => .ok () (s1.setAutoRefreshing false)] s
  else
    inOrder
      [refreshDisplay .partialMode,
       fun s1 => .ok () (s1.setPartialCount (s1.panel.partialRefreshCount + 1))] s

/-- `pre_upload()` (R252) over the white upload it starts under `ClearToWhite`. -/
def preUploadWith (whiteUpload : State → Res Unit) (s : State) : Res Unit :=
  if s.panel.refreshMode = .fullMode then .ok () s
  else if s.panel.autoRefreshMode = .noPolicy then .ok () s
  else if s.panel.autoRefreshing = true then .ok () s
  else if budgetExhausted s.panel = false then .ok () s
  else if s.panel.autoRefreshMode = .fullRefresh then applyConfig .fullMode (s.setAutoRefreshing true)
  else whiteUpload (s.setAutoRefreshing true)

/-- An upload body between a `pre_upload` and `post_upload` (R250). -/
def uploadWith (pre body : State → Res Unit) (s : State) : Res Unit := inOrder [pre, body, postUpload] s

/-- The body of `Clear(to_black)`: the uniform frame of the size in force (R224, R258). -/
def uploadUniform (toBlack : Bool) (s : State) : Res Unit := uploadFull (uniformFrame toBlack s.panel) s

/-- The nested `Clear(false)` of `pre_upload` (R252). "The nested `pre_upload` returns at its third test. Nesting
depth is at most one", so the nested one has no white upload of its own to start: `Laws/Scheduler.lean` proves that
this is the whole `Clear(false)` wherever `pre_upload` calls it. -/
def nestedClear (s : State) : Res Unit :=
  uploadWith (preUploadWith fun s1 => .ok () s1) (uploadUniform false) s

/-- `pre_upload()` (R252). -/
def preUpload (s : State) : Res Unit := preUploadWith nestedClear s

/-- The body of `RawFb(data)` (R257). -/
def rawFb (data : List Byte) (s : State) : Res Unit := uploadWith preUpload (uploadFull data) s

/-- The body of `Clear(to_black)`: `RawFb(UniformFrame(to_black))` (R258). -/
def clearPanel (toBlack : Bool) (s : State) : Res Unit := rawFb (uniformFrame toBlack s.panel) s

/-- "raise OutOfRange before `pre_upload` and before any outward transaction" (R225). -/
def requireBitmap (bw bh : BitVec 16) (din : List Byte) (s : State) : Res Unit :=
  if bitmapOk bw bh din then .ok () s else .raised .outOfRange s

/-- "The refusal of rule R222 is decided before anything is sent" (R228). -/
def requireOffsets (px py : Int) (bw bh : BitVec 16) (s : State) : Res Unit :=
  if regionOffsetsOk s.par s.panel (overlapOf s.panel px py bw bh) then .ok () s
  else .refused .rowOffsetOutOfRange

/-- The body of `set_refresh_mode(mode)` (R251). -/
def setMode (mode : RefreshMode) (s : State) : Res Unit :=
  inOrder
    [requirePanelReady,
     fun s1 => .ok () (s1.setRefreshMode mode),
     fun s1 => .ok () (if mode = .fullMode then s1.setPartialCount 0 else s1),
     applyConfig mode] s

/-- The body of `set_auto_refresh(policy)` (R254). -/
def setAuto (policy : RefreshPolicy) (s : State) : Res Unit :=
  inOrder [requirePanelReady, fun s1 => .ok () (s1.setAutoRefreshMode policy)] s

/-! One definition for each row. -/

/-- `E.SETMODE.P` (R251). -/
def execESetmodeP (s : State) : Host.Outcome State Fault Refusal := (setMode .partialMode s).silent.complete

/-- `E.SETMODE.F` (R251). -/
def execESetmodeF (s : State) : Host.Outcome State Fault Refusal := (setMode .fullMode s).silent.complete

/-- `E.SETAUTO.NONE` (R254). -/
def execESetautoNone (s : State) : Host.Outcome State Fault Refusal := (setAuto .noPolicy s).silent.complete

/-- `E.SETAUTO.FULL` (R254). -/
def execESetautoFull (s : State) : Host.Outcome State Fault Refusal := (setAuto .fullRefresh s).silent.complete

/-- `E.SETAUTO.WHITE` (R254). -/
def execESetautoWhite (s : State) : Host.Outcome State Fault Refusal := (setAuto .clearToWhite s).silent.complete

/-- `E.SETMAX` (R255). -/
def execESetmax (n : BitVec 32) (s : State) : Host.Outcome State Fault Refusal :=
  (inOrder [requirePanelReady, fun s1 => .ok () (s1.setMaxPartial n)] s).silent.complete

/-- `E.CLEAR.W` (R258). -/
def execEClearW (s : State) : Host.Outcome State Fault Refusal :=
  (inOrder [requirePanelReady, clearPanel false] s).silent.complete

/-- `E.CLEAR.B` (R258). -/
def execEClearB (s : State) : Host.Outcome State Fault Refusal :=
  (inOrder [requirePanelReady, clearPanel true] s).silent.complete

/-- `E.RAWFB` (R257). -/
def execERawfb (din : List Byte) (s : State) : Host.Outcome State Fault Refusal :=
  (inOrder [requirePanelReady, rawFb din] s).silent.complete

/-- `E.PUTBMP` (R259). -/
def execEPutbmp (px py : BitVec 32) (bw bh : BitVec 16) (din : List Byte) (s : State) :
    Host.Outcome State Fault Refusal :=
  (inOrder
    [requirePanelReady,
     requireBitmap bw bh din,
     requireOffsets px.toInt py.toInt bw bh,
     uploadWith preUpload (uploadBitmap px.toInt py.toInt bw bh din)] s).silent.complete

end Sys2Proof.Machine
end

