-- ==== Sys2Proof/Machine/Touch.lean ====
section
/-! DEFINITION. The meanings of unit TES (41_touch.md R170 to R187). -/

namespace Sys2Proof.Machine

/-! Shared pieces. -/

/-- `ResetSequence()` (R172): the five trace records, and the table cleared. -/
def touchResetSequence (s : State) : Res Unit :=
  inOrder
    [lineSet .tRst false, pause s.par.touchResetPauseMs,
     lineSet .tRst true, pause s.par.touchResetPauseMs,
     lineSet .tRst false,
     fun s' => .ok () (s'.setTable [])] s

/-- The `Unlock` event with the fields of `UNLOCK_FIELDS` (R177, D15). -/
def unlockEvent (par : Params) : TouchEvent :=
  ⟨.unlock, par.unlockFields.touchId, par.unlockFields.x, par.unlockFields.y, par.unlockFields.size⟩

/-- Step 2, `LockedPoll()` (R177). -/
def lockedPoll (s : State) : Res (List TouchEvent) :=
  (regReadByte regLockStatus s).bind fun status s1 =>
  if status = unlockStatus then
    (touchResetSequence s1).bind fun _ s2 => .ok [unlockEvent s2.par] (s2.setLocked false)
  else (regWrite regLockStatus [0x00] s1).bind fun _ s2 => .ok [] s2

/-- Step 5, `ReleaseAll()` (R181): a Release for every tracked id, in any order, and an empty table. -/
def releaseAll (s : State) : Res (List TouchEvent) :=
  orderEvents (s.touch.table.map fun p => released p.2) (s.setTable [])

/-- Steps 6 and 7 for a valid count (R182 to R186). A frame that repeats an id is refused (D18). -/
def framePoll (count : Nat) (s : State) : Res (List TouchEvent) :=
  (regRead regTouchStatus (1 + 8 * count) s).bind fun frame s1 =>
  (fieldOr (parseFrame count frame) s1).bind fun rs s2 =>
  if (rs.map TouchRecord.touchId).Nodup then
    orderEvents (classifyFrame rs s2.touch.table).2 (s2.setTable (classifyFrame rs s2.touch.table).1)
  else .refused .duplicateTouchId

/-- Steps 3 to 7 (R178 to R186). -/
def unlockedPoll (s : State) : Res (List TouchEvent) :=
  (regReadByte regTouchStatus s).bind fun status s1 =>
  if status = 0 then .ok [] s1
  else (regWrite regTouchStatus [0x00] s1).bind fun _ s2 =>
    let count := (status &&& 0x0f).toNat
    if count = 0 ∨ touchMaxCount < count then releaseAll s2 else framePoll count s2

/-- `T.POLL` (R176): its event list. -/
def pollTouch (s : State) : Res (List TouchEvent) :=
  (requireTouchReady s).bind fun _ s1 =>
  (touchWait (.ms 0) s1).bind fun pending s2 =>
  if pending = false then .ok [] s2
  else if s2.touch.locked then lockedPoll s2
  else unlockedPoll s2

/-- The Config answer into `cfg`, field by field through the private codec; a field already read stays written
where the answer runs out (R102, R173, R296, U8). -/
def readConfig (answer : List Byte) (s : State) : Res Unit :=
  (fieldOr (takeField 2 answer) s).bind fun mx s1 =>
  let s1 := s1.setCfg { s1.touch.cfg with maxX := BitVec.ofNat 16 mx.1 }
  (fieldOr (takeField 2 mx.2) s1).bind fun my s2 =>
  let s2 := s2.setCfg { s2.touch.cfg with maxY := BitVec.ofNat 16 my.1 }
  (fieldOr (takeField 1 my.2) s2).bind fun mp s3 =>
  .ok () (s3.setCfg { s3.touch.cfg with maxTouchPoints := BitVec.ofNat 8 mp.1 })

/-- `T.INIT` (R173). -/
def initTouch (s : State) : Res Unit :=
  (touchResetSequence (s.setTReady false)).bind fun _ s1 =>
  (regReadExact regId 4 (s1.setLocked false)).bind fun ident s2 =>
  if ident ≠ touchIdExpect then .raised .protocolMismatch s2
  else (regRead regConfig 5 s2).bind fun answer s3 =>
    (readConfig answer s3).bind fun _ s4 => .ok () (s4.setTReady true)

/-- `T.LOCK` (R175). -/
def lockTouch (s : State) : Res Unit :=
  (requireTouchReady s).bind fun _ s1 =>
  (regWrite regLockControl lockPayload s1).bind fun _ s2 => .ok () ((s2.setLocked true).setTable [])

/-! One definition for each row. -/

/-- `T.INIT` (R173). -/
def execTInit (s : State) : Host.Outcome State Fault Refusal := (initTouch s).silent.complete

/-- `T.CFG` (R174). -/
def execTCfg (s : State) : Host.Outcome State Fault Refusal :=
  ((requireTouchReady s).bind fun _ s1 => withR (cfgWord s1.touch.cfg) s1).complete

/-- `T.LOCK` (R175). -/
def execTLock (s : State) : Host.Outcome State Fault Refusal := (lockTouch s).silent.complete

/-- `T.WAIT` (R187). -/
def execTWait (timeout : BitVec 64) (s : State) : Host.Outcome State Fault Refusal :=
  ((requireTouchReady s).bind fun _ s1 =>
    (touchWait (timeoutOfPort timeout) s1).bind fun b s2 => withR ((BitVec.ofBool b).setWidth 64) s2).complete

/-- `T.POLL` (R176): `R` the number of events, `DOUT` their words (R94). -/
def execTPoll (s : State) : Host.Outcome State Fault Refusal :=
  ((pollTouch s).bind fun es s1 => .ok ⟨some (BitVec.ofNat 64 es.length), some (eventBytes es)⟩ s1).complete

end Sys2Proof.Machine
end

