-- ==== Sys2Proof/Machine/Wire.lean ====
section
/-! DEFINITION. The meanings of the rows at the grain of one primitive (00_scope.md R12): the fourteen panel commands
(30_encoding.md R108), each one `SendCmd` with the payload of its row, and the eight register accesses of the touch
unit (20_memory.md R66), each one call of the register transport. The host operations perform the same through the
same shared operations. A read presents the bytes it asked for on `DOUT`: notes/assumptions/6.md. -/

namespace Sys2Proof.Machine

/-! Panel commands. -/

/-- `EPD.DriverOutputControl`: `EPD_DOC_PAYLOAD(W, H)` (R108, R214). -/
def execEpdDriverOutputControl (s : State) : Host.Outcome State Fault Refusal :=
  (sendDriverOutputControl s).silent.complete

/-- `EPD.DeepSleep`: "DeepSleep with argument 1" (R108, R229). -/
def execEpdDeepSleep (s : State) : Host.Outcome State Fault Refusal := (sendCmd 0x10 [0x01] s).silent.complete

/-- `EPD.DataInputMode`: `{EPD_DIM_ARG}` (R108, R214). -/
def execEpdDataInputMode (s : State) : Host.Outcome State Fault Refusal := (sendDataInputMode s).silent.complete

/-- `EPD.SoftReset`: no payload (R108, R214). -/
def execEpdSoftReset (s : State) : Host.Outcome State Fault Refusal := (sendCmd 0x12 [] s).silent.complete

/-- `EPD.TemperatureSource`: "temperature source 0x80" (R108, R214). -/
def execEpdTemperatureSource (s : State) : Host.Outcome State Fault Refusal := (sendCmd 0x18 [0x80] s).silent.complete

/-- `EPD.BeginUpdate`: no payload (R108, R215). -/
def execEpdBeginUpdate (s : State) : Host.Outcome State Fault Refusal := (sendCmd 0x20 [] s).silent.complete

/-- `EPD.DisplayUpdateControl1`: "display-update-control-1 `{0,0x80}`" (R108, R214). -/
def execEpdDisplayUpdateControl1 (s : State) : Host.Outcome State Fault Refusal :=
  (sendCmd 0x21 [0x00, 0x80] s).silent.complete

/-- `EPD.DisplayUpdateControl2`: "0xf7 (full) or 0xff (partial)" (R108, R215). -/
def execEpdDisplayUpdateControl2 (mode : RefreshMode) (s : State) : Host.Outcome State Fault Refusal :=
  (sendCmd 0x22 (updateModePayload mode) s).silent.complete

/-- `EPD.UploadImageData`: the image bytes (R108, R223). -/
def execEpdUploadImageData (data : List Byte) (s : State) : Host.Outcome State Fault Refusal :=
  (sendCmd 0x24 data s).silent.complete

/-- `EPD.BorderWaveformControl`: "border waveform 0x05" Full, "border waveform 0x80" Partial (R108, R214). -/
def execEpdBorderWaveformControl (mode : RefreshMode) (s : State) : Host.Outcome State Fault Refusal :=
  (sendCmd 0x3c (borderPayload mode) s).silent.complete

/-- `EPD.DrawRegionX` (R108, R220). -/
def execEpdDrawRegionX (x0 x1 : BitVec 16) (s : State) : Host.Outcome State Fault Refusal :=
  (sendCmd 0x44 (drawRegionXPayload x0.toNat x1.toNat) s).silent.complete

/-- `EPD.DrawRegionY` (R108, R220). -/
def execEpdDrawRegionY (y0 y1 : BitVec 16) (s : State) : Host.Outcome State Fault Refusal :=
  (sendCmd 0x45 (drawRegionYPayload y0.toNat y1.toNat) s).silent.complete

/-- `EPD.DrawOffsetX` (R108, R221). -/
def execEpdDrawOffsetX (ox : BitVec 16) (s : State) : Host.Outcome State Fault Refusal :=
  (sendCmd 0x4e (drawOffsetXPayload ox.toNat) s).silent.complete

/-- `EPD.DrawOffsetY` (R108, R221). -/
def execEpdDrawOffsetY (oy : BitVec 16) (s : State) : Host.Outcome State Fault Refusal :=
  (sendCmd 0x4f (drawOffsetYPayload oy.toNat) s).silent.complete

/-! Register accesses. -/

/-- A register read at primitive grain: its `n` bytes on `DOUT`. -/
def readAccess (reg : BitVec 16) (n : Nat) (s : State) : Res Results :=
  (regReadExact reg n s).bind fun bytes s1 => withDout bytes s1

/-- `TOUCH.ID.READ`: 4 bytes at 0x8140 (R66, R101). -/
def execTouchIdRead (s : State) : Host.Outcome State Fault Refusal := (readAccess regId 4 s).complete

/-- `TOUCH.CONFIG.READ`: 5 bytes at 0x8051 (R66, R102). -/
def execTouchConfigRead (s : State) : Host.Outcome State Fault Refusal := (readAccess regConfig 5 s).complete

/-- `TOUCH.STATUS.READ`: 1 byte at 0x814e (R66, R103). -/
def execTouchStatusRead (s : State) : Host.Outcome State Fault Refusal := (readAccess regTouchStatus 1 s).complete

/-- `TOUCH.STATUS.ACK`: `{0x00}` to 0x814e (R66, R179). -/
def execTouchStatusAck (s : State) : Host.Outcome State Fault Refusal :=
  (regWrite regTouchStatus [0x00] s).silent.complete

/-- `TOUCH.FRAME.READ`: `1 + count*8` bytes from 0x814e (R66, R105). -/
def execTouchFrameRead (count : BitVec 4) (s : State) : Host.Outcome State Fault Refusal :=
  (readAccess regTouchStatus (1 + 8 * count.toNat) s).complete

/-- `TOUCH.LOCKCTL.WRITE`: `{0x08, 0x00, 0xf8}` to 0x8040 (R66, R106). -/
def execTouchLockctlWrite (s : State) : Host.Outcome State Fault Refusal :=
  (regWrite regLockControl lockPayload s).silent.complete

/-- `TOUCH.LOCKSTATUS.READ`: 1 byte at 0x814c (R66, R106). -/
def execTouchLockstatusRead (s : State) : Host.Outcome State Fault Refusal := (readAccess regLockStatus 1 s).complete

/-- `TOUCH.LOCKSTATUS.ACK`: `{0x00}` to 0x814c (R66, R106, D14). -/
def execTouchLockstatusAck (s : State) : Host.Outcome State Fault Refusal :=
  (regWrite regLockStatus [0x00] s).silent.complete

end Sys2Proof.Machine
end

