-- ==== Sys2Proof/Machine/Dispatch.lean ====
section
/-! DEFINITION. One arm for each instruction (30_encoding.md R93, R108; 20_memory.md R66). -/

namespace Sys2Proof.Machine

/-- The meaning of an instruction at a state. -/
def exec (i : Instr) (s : State) : Host.Outcome State Fault Refusal :=
  match i with
  | .bTobe1 v => Sys2Proof.Machine.execBTobe1 v s
  | .bTobe2 v => Sys2Proof.Machine.execBTobe2 v s
  | .bTobe4 v => Sys2Proof.Machine.execBTobe4 v s
  | .bTobe8 v => Sys2Proof.Machine.execBTobe8 v s
  | .bTole1 v => Sys2Proof.Machine.execBTole1 v s
  | .bTole2 v => Sys2Proof.Machine.execBTole2 v s
  | .bTole4 v => Sys2Proof.Machine.execBTole4 v s
  | .bTole8 v => Sys2Proof.Machine.execBTole8 v s
  | .bWrapLe din => Sys2Proof.Machine.execBWrapLe din s
  | .bWrapBe din => Sys2Proof.Machine.execBWrapBe din s
  | .bRead1 => Sys2Proof.Machine.execBRead1 s
  | .bRead2 => Sys2Proof.Machine.execBRead2 s
  | .bRead4 => Sys2Proof.Machine.execBRead4 s
  | .bRead8 => Sys2Proof.Machine.execBRead8 s
  | .bWrite1 v => Sys2Proof.Machine.execBWrite1 v s
  | .bWrite2 v => Sys2Proof.Machine.execBWrite2 v s
  | .bWrite4 v => Sys2Proof.Machine.execBWrite4 v s
  | .bWrite8 v => Sys2Proof.Machine.execBWrite8 v s
  | .bSeekBeg off => Sys2Proof.Machine.execBSeekBeg off s
  | .bSeekCur off => Sys2Proof.Machine.execBSeekCur off s
  | .bSeekEnd off => Sys2Proof.Machine.execBSeekEnd off s
  | .bTell => Sys2Proof.Machine.execBTell s
  | .bDump => Sys2Proof.Machine.execBDump s
  | .tInit => Sys2Proof.Machine.execTInit s
  | .tCfg => Sys2Proof.Machine.execTCfg s
  | .tLock => Sys2Proof.Machine.execTLock s
  | .tWait timeout => Sys2Proof.Machine.execTWait timeout s
  | .tPoll => Sys2Proof.Machine.execTPoll s
  | .eInit w h => Sys2Proof.Machine.execEInit w h s
  | .eSetsize w h => Sys2Proof.Machine.execESetsize w h s
  | .eGeom => Sys2Proof.Machine.execEGeom s
  | .eSetmodeP => Sys2Proof.Machine.execESetmodeP s
  | .eSetmodeF => Sys2Proof.Machine.execESetmodeF s
  | .eSetautoNone => Sys2Proof.Machine.execESetautoNone s
  | .eSetautoFull => Sys2Proof.Machine.execESetautoFull s
  | .eSetautoWhite => Sys2Proof.Machine.execESetautoWhite s
  | .eSetmax n => Sys2Proof.Machine.execESetmax n s
  | .eClearW => Sys2Proof.Machine.execEClearW s
  | .eClearB => Sys2Proof.Machine.execEClearB s
  | .eRawfb din => Sys2Proof.Machine.execERawfb din s
  | .ePutbmp px py bw bh din => Sys2Proof.Machine.execEPutbmp px py bw bh din s
  | .ePoweroff => Sys2Proof.Machine.execEPoweroff s
  | .epdDriverOutputControl => Sys2Proof.Machine.execEpdDriverOutputControl s
  | .epdDeepSleep => Sys2Proof.Machine.execEpdDeepSleep s
  | .epdDataInputMode => Sys2Proof.Machine.execEpdDataInputMode s
  | .epdSoftReset => Sys2Proof.Machine.execEpdSoftReset s
  | .epdTemperatureSource => Sys2Proof.Machine.execEpdTemperatureSource s
  | .epdBeginUpdate => Sys2Proof.Machine.execEpdBeginUpdate s
  | .epdDisplayUpdateControl1 => Sys2Proof.Machine.execEpdDisplayUpdateControl1 s
  | .epdDisplayUpdateControl2 mode => Sys2Proof.Machine.execEpdDisplayUpdateControl2 mode s
  | .epdUploadImageData data => Sys2Proof.Machine.execEpdUploadImageData data s
  | .epdBorderWaveformControl mode => Sys2Proof.Machine.execEpdBorderWaveformControl mode s
  | .epdDrawRegionX x0 x1 => Sys2Proof.Machine.execEpdDrawRegionX x0 x1 s
  | .epdDrawRegionY y0 y1 => Sys2Proof.Machine.execEpdDrawRegionY y0 y1 s
  | .epdDrawOffsetX ox => Sys2Proof.Machine.execEpdDrawOffsetX ox s
  | .epdDrawOffsetY oy => Sys2Proof.Machine.execEpdDrawOffsetY oy s
  | .touchIdRead => Sys2Proof.Machine.execTouchIdRead s
  | .touchConfigRead => Sys2Proof.Machine.execTouchConfigRead s
  | .touchStatusRead => Sys2Proof.Machine.execTouchStatusRead s
  | .touchStatusAck => Sys2Proof.Machine.execTouchStatusAck s
  | .touchFrameRead count => Sys2Proof.Machine.execTouchFrameRead count s
  | .touchLockctlWrite => Sys2Proof.Machine.execTouchLockctlWrite s
  | .touchLockstatusRead => Sys2Proof.Machine.execTouchLockstatusRead s
  | .touchLockstatusAck => Sys2Proof.Machine.execTouchLockstatusAck s

end Sys2Proof.Machine
end

