-- ==== Sys2Proof/Machine/Step.lean ====
section
/-! DEFINITION. One step of the block: one request, run to completion (00_scope.md R2, R12). -/

namespace Sys2Proof.Machine

/-- Take the next request and run it; with none presented the block is idle and nothing changes (R301). -/
def step (s : State) : Host.Outcome State Fault Refusal :=
  match fetch s with
  | none => .next s
  | some (q, s') =>
    match decode q with
    | .ok i => exec i s'
    | .error _ => rejectRequest q s'

/-- The state with a table row's bits presented as the next request, its operand ports zero. -/
def State.withFetchWord (s : State) (nbits w : Nat) : State := s.presentRequest (requestOfWord nbits w)

end Sys2Proof.Machine
end

