-- ==== Sys2Proof/Safety.lean ====
section
/-! DEFINITION. The terms the claims use: the invariants of the units, an environment in which no call of an operation
fails, the records an operation emits then, and the stream of bytes the panel sees. -/

namespace Sys2Proof.Machine

/-! Invariants. -/

/-- "`0 <= cur <= len <= BUF_MAX`" (10_state.md R23), the buffer in its canonical form. -/
abbrev State.bufferInv (s : State) : Prop :=
  s.buf.wf ∧ s.cur.toNat ≤ s.buf.size ∧ s.buf.size ≤ s.par.bufMax.toNat

/-- The Track Table as R30 describes it: at most 5 entries, in ascending order of id, each stored under its own id as
Touch or Drag. -/
abbrev tableInv (t : List (BitVec 8 × TouchEvent)) : Prop :=
  t.length ≤ 5 ∧ (tableIds t).Pairwise (fun i j => i.toNat < j.toNat) ∧
    ∀ p ∈ t, p.2.touchId = p.1 ∧ (p.2.kind = .touch ∨ p.2.kind = .drag)

/-- The TES invariants "true whenever `t_ready` is true and no operation is running" (R30). -/
abbrev State.touchInv (s : State) : Prop :=
  s.tReady = true → tableInv s.touch.table ∧ (s.touch.locked = true → s.touch.table = [])

/-- What "hold[s] whenever `e_ready` is true and no operation is running" (R36), and `W`, `H` "at least 1" (R37). -/
abbrev State.panelInv (s : State) : Prop :=
  s.eReady = true →
    s.panel.autoRefreshing = false ∧ (s.panel.refreshMode = .fullMode → s.panel.partialRefreshCount = 0) ∧
      s.panel.width ≠ 0 ∧ s.panel.height ≠ 0

/-! The unit an instruction belongs to (R16 "one of BBC, TES, ERS"). -/

/-- The units. -/
inductive BlockUnit where
  | bbc
  | tes
  | ers
  deriving DecidableEq, Repr

/-- The unit of an instruction: `CW[15:12]` of a host operation (R90), ERS for a panel command, TES for a register
access. -/
def unitOf (i : Instr) : BlockUnit :=
  match (encode i).chan with
  | .panel => .ers
  | .touch => .tes
  | .host => if (encode i).word.toNat < 0x1000 then .bbc else if (encode i).word.toNat < 0x2000 then .tes else .ers

/-- The command words of R93. -/
def hostWords : List Nat :=
  [0x0000, 0x0001, 0x0002, 0x0003, 0x0100, 0x0101, 0x0102, 0x0103, 0x0200, 0x0201, 0x0300, 0x0301, 0x0302, 0x0303,
   0x0400, 0x0401, 0x0402, 0x0403, 0x0500, 0x0501, 0x0502, 0x0600, 0x0700, 0x1000, 0x1100, 0x1200, 0x1300, 0x1400,
   0x2000, 0x2100, 0x2200, 0x2300, 0x2301, 0x2400, 0x2401, 0x2402, 0x2500, 0x2600, 0x2601, 0x2700, 0x2800, 0x2900]

/-- The fourteen panel opcodes of R108. -/
def panelOpcodes : List Byte :=
  [0x01, 0x10, 0x11, 0x12, 0x18, 0x20, 0x21, 0x22, 0x24, 0x3c, 0x44, 0x45, 0x4e, 0x4f]

/-! Records of successful calls. -/

/-- `SendCmd(op, payload)` when both writes succeed (R211). -/
def cmdRecords (op : Byte) (payload : List Byte) : List Record :=
  [.lineSet .eDc false, .spiWrite [op] true] ++
    if payload = [] then [] else [.lineSet .eDc true, .spiWrite payload true]

/-- `wait_for_busy` when the line reads not asserted: "the one-record trace" (R212). -/
def idleRecords : List Record := [.lineGet .eBusy false]

/-- An action of `EPD_HW_RESET_SEQ` in the trace (R213). -/
def resetRecord : ResetAction → Record
  | .setLine b => .lineSet .eRst b
  | .pause ms => .pause ms

/-- The commands of `apply_config` that depend on the mode (R214). -/
def waveformRecords : RefreshMode → List Record
  | .fullMode => cmdRecords 0x3c [0x05] ++ cmdRecords 0x21 [0x00, 0x80] ++ cmdRecords 0x18 [0x80]
  | .partialMode => cmdRecords 0x3c [0x80]

/-- The argument of DisplayUpdateControl2: "0xf7 (full) or 0xff (partial)" (R215). -/
def updateArgument : RefreshMode → Byte
  | .fullMode => 0xf7
  | .partialMode => 0xff

/-- `apply_config(mode)` (R214). -/
def applyConfigRecords (par : Params) (w h : BitVec 16) (mode : RefreshMode) : List Record :=
  (epdHwResetSeq par).map resetRecord ++ cmdRecords 0x12 [] ++ idleRecords ++ cmdRecords 0x11 [epdDimArg par] ++
    cmdRecords 0x01 (epdDocPayload par w h) ++
    waveformRecords mode ++ idleRecords

/-- `refresh_display(mode)` (R215). -/
def refreshRecords (mode : RefreshMode) : List Record :=
  cmdRecords 0x22 [updateArgument mode] ++ cmdRecords 0x20 [] ++ idleRecords

/-- `SetDrawRegion` (R220). -/
def drawRegionRecords (x0 y0 x1 y1 : Nat) : List Record :=
  cmdRecords 0x44 [BitVec.ofNat 8 (x0 / 8), BitVec.ofNat 8 (x1 / 8)] ++
    cmdRecords 0x45
      [BitVec.ofNat 8 y0, BitVec.ofNat 8 (y0 / 256), BitVec.ofNat 8 y1, BitVec.ofNat 8 (y1 / 256)]

/-- `SetDrawOffset` (R221). -/
def drawOffsetRecords (ox oy : Nat) : List Record :=
  cmdRecords 0x4e [BitVec.ofNat 8 (ox / 8)] ++ cmdRecords 0x4f [BitVec.ofNat 8 oy, BitVec.ofNat 8 (oy / 256)]

/-- `UploadFull(data)` (R223). -/
def uploadFullRecords (w h : BitVec 16) (data : List Byte) : List Record :=
  drawRegionRecords 0 0 (w.toNat - 1) (h.toNat - 1) ++ drawOffsetRecords 0 0 ++ cmdRecords 0x24 data

/-- One row of `UploadBitmap` (R228), at the offset `W - 2 - x`, `H - row - y` with the bases of R222. -/
def uploadRowRecords (par : Params) (p : PanelUnit) (px py : Int) (bw bh : BitVec 16) (din : List Byte) (r : Nat) :
    List Record :=
  let o := overlapOf p px py bw bh
  drawOffsetRecords (offsetBaseW par p.width - 2 - o.cx0).toNat (offsetBaseH par p.height - r - o.cy0).toNat ++
    cmdRecords 0x24 [] ++
    [.lineSet .eDc true, .spiWrite (rowBytes par.cropPadBit o px py bw bh din r) true]

/-- `UploadBitmap` (R228): nothing for an empty overlap, else the region and the rows in increasing order. -/
def uploadBitmapRecords (par : Params) (p : PanelUnit) (px py : Int) (bw bh : BitVec 16) (din : List Byte) :
    List Record :=
  let o := overlapOf p px py bw bh
  if overlapEmpty o then []
  else
    drawRegionRecords o.cx0.toNat o.cy0.toNat o.cx1.toNat o.cy1.toNat ++
      (List.range (overlapHeight o)).flatMap (uploadRowRecords par p px py bw bh din)

/-- Whether an upload starts a remediation cycle (R252), and which. -/
def startsCycle (p : PanelUnit) : Bool :=
  decide (p.refreshMode = .partialMode) && decide (p.autoRefreshMode ≠ .noPolicy) &&
    decide (p.maxPartialRefreshes.toNat ≤ p.partialRefreshCount.toNat)

/-- The table of R262: what one upload operation emits around its body. -/
def uploadPlan (par : Params) (p : PanelUnit) (body : List Record) : List Record :=
  if p.refreshMode = .fullMode then body ++ refreshRecords .fullMode
  else if startsCycle p = false then body ++ refreshRecords .partialMode
  else if p.autoRefreshMode = .fullRefresh then
    applyConfigRecords par p.width p.height .fullMode ++ body ++ refreshRecords .fullMode ++
      applyConfigRecords par p.width p.height .partialMode
  else
    uploadFullRecords p.width p.height (uniformFrame false p) ++ refreshRecords .partialMode ++ body ++
      refreshRecords .partialMode

/-- The column "counter after" of R262. -/
def counterAfter (p : PanelUnit) : BitVec 32 :=
  if p.refreshMode = .fullMode ∨ p.autoRefreshMode = .noPolicy then p.partialRefreshCount
  else if startsCycle p = false then p.partialRefreshCount + 1
  else if p.autoRefreshMode = .fullRefresh then 0 else 1

/-- The panel state after one upload operation (R262): only the counter moves. -/
def panelAfterUpload (p : PanelUnit) : PanelUnit := { p with partialRefreshCount := counterAfter p }

/-! An environment in which the calls of some records succeed as recorded. -/

/-- The streaming writes among records. -/
def spiCalls (es : List Record) : Nat := es.countP fun e => match e with | .spiWrite _ _ => true | _ => false

/-- The `E_BUSY.get()` calls among records. -/
def busyCalls (es : List Record) : Nat := es.countP fun e => match e with | .lineGet _ _ => true | _ => false

/-- The next streaming writes succeed and the next levels of `E_BUSY` are not asserted, as many as the records
have calls. -/
abbrev State.quietFor (s : State) (es : List Record) : Prop :=
  s.answers.spiWrite.take (spiCalls es) = List.replicate (spiCalls es) true ∧
    s.answers.busyLevel.take (busyCalls es) = List.replicate (busyCalls es) false

/-- The state after panel calls with these records: they are in the trace and their answers are consumed. -/
def State.ran (s : State) (es : List Record) : State :=
  { s with
    trace := s.trace ++ es
    answers :=
      { s.answers with
        spiWrite := s.answers.spiWrite.drop (spiCalls es)
        busyLevel := s.answers.busyLevel.drop (busyCalls es) }
    drawn := s.drawn + spiCalls es + busyCalls es }

/-! Touch records. -/

/-- A register read answered with bytes (R9, R100). -/
def readRecord (par : Params) (reg : BitVec 16) (n : Nat) (bytes : List Byte) : Record :=
  .i2cRead (touchDevAddr par) (registerBytes reg) n (some bytes)

/-- A successful register write (R9, R100). -/
def writeRecord (par : Params) (reg : BitVec 16) (payload : List Byte) : Record :=
  .i2cWrite (touchDevAddr par) (registerBytes reg) payload true

/-- `ResetSequence()` in the trace (R172). -/
def touchResetRecords (par : Params) : List Record :=
  [.lineSet .tRst false, .pause par.touchResetPauseMs, .lineSet .tRst true, .pause par.touchResetPauseMs,
   .lineSet .tRst false]

/-- The record of the query of `T.POLL` step 1 (R180). -/
def pollRecord (pending : Bool) : Record := .lineWait .tInt (.ms 0) pending

/-! The bytes the panel sees (R211, D24): each with the level of `E_DC` in force when it was sent. -/

/-- The tagged byte stream of a trace, from a level of `E_DC` on; `true` is high, data. -/
def taggedBytes : Bool → List Record → List (Bool × Byte)
  | _, [] => []
  | _, .lineSet .eDc b :: es => taggedBytes b es
  | dc, .spiWrite bytes _ :: es => bytes.map (fun x => (dc, x)) ++ taggedBytes dc es
  | dc, _ :: es => taggedBytes dc es

/-! Rows of one shape, by their operand or modifier (R91). -/

/-- `n = 2^sz` bytes (R91). -/
def widthOf (sz : Fin 4) : Nat := 2 ^ sz.val

/-- `B.TOBE.sz` of the low bytes of port `A`. -/
def tobeOf (sz : Fin 4) (a : BitVec 64) : Instr :=
  match sz with
  | 0 => .bTobe1 (a.extractLsb' 0 8)
  | 1 => .bTobe2 (a.extractLsb' 0 16)
  | 2 => .bTobe4 (a.extractLsb' 0 32)
  | 3 => .bTobe8 a

/-- `B.TOLE.sz` of the low bytes of port `A`. -/
def toleOf (sz : Fin 4) (a : BitVec 64) : Instr :=
  match sz with
  | 0 => .bTole1 (a.extractLsb' 0 8)
  | 1 => .bTole2 (a.extractLsb' 0 16)
  | 2 => .bTole4 (a.extractLsb' 0 32)
  | 3 => .bTole8 a

/-- `B.READ.sz`. -/
def readOf (sz : Fin 4) : Instr :=
  match sz with
  | 0 => .bRead1
  | 1 => .bRead2
  | 2 => .bRead4
  | 3 => .bRead8

/-- `B.WRITE.sz` of the low bytes of port `A`. -/
def writeOf (sz : Fin 4) (a : BitVec 64) : Instr :=
  match sz with
  | 0 => .bWrite1 (a.extractLsb' 0 8)
  | 1 => .bWrite2 (a.extractLsb' 0 16)
  | 2 => .bWrite4 (a.extractLsb' 0 32)
  | 3 => .bWrite8 a

/-- `B.SEEK.org`. -/
def seekOf (o : Origin) (off : BitVec 64) : Instr :=
  match o with
  | .fromBegin => .bSeekBeg off
  | .fromCurrent => .bSeekCur off
  | .fromEnd => .bSeekEnd off

/-- `B.WRAP.en`. -/
def wrapOf (e : Endian) (din : List Byte) : Instr :=
  match e with
  | .little => .bWrapLe din
  | .big => .bWrapBe din

/-- `E.SETMODE.m`. -/
def setmodeOf (m : RefreshMode) : Instr :=
  match m with
  | .partialMode => .eSetmodeP
  | .fullMode => .eSetmodeF

/-- `E.SETAUTO.p`. -/
def setautoOf (p : RefreshPolicy) : Instr :=
  match p with
  | .noPolicy => .eSetautoNone
  | .fullRefresh => .eSetautoFull
  | .clearToWhite => .eSetautoWhite

/-- `E.CLEAR.c`. -/
def clearOf (toBlack : Bool) : Instr := if toBlack then .eClearB else .eClearW

/-- The bytes of a touch record (R104), with a reserved byte. -/
def recordBytes (r : TouchRecord) (reserved : Byte) : List Byte :=
  [r.touchId, r.x.extractLsb' 0 8, r.x.extractLsb' 8 8, r.y.extractLsb' 0 8, r.y.extractLsb' 8 8,
   r.size.extractLsb' 0 8, r.size.extractLsb' 8 8, reserved]

/-- A record whose call failed (R10). -/
def callFailed : Record → Bool
  | .i2cWrite _ _ _ ok => !ok
  | .i2cRead _ _ _ answer => answer.isNone
  | .spiWrite _ ok => !ok
  | .spiConfig _ _ _ _ _ _ | .lineConfig _ _ _ | .lineSet _ _ | .lineGet _ _ => false
  | .lineWait _ _ _ | .lineDrain _ | .pause _ => false

/-! The per-id event grammar (R192). -/

/-- The automaton of `(Touch Drag* Release)* (Touch Drag*)?` from "the id has an open touch" or not: where it ends, or
none for a word that leaves the language. -/
def grammarRun : Bool → List EventKind → Option Bool
  | isOpen, [] => some isOpen
  | false, .touch :: ks => grammarRun true ks
  | true, .drag :: ks => grammarRun true ks
  | true, .release :: ks => grammarRun false ks
  | _, _ :: _ => none

/-- A run of `T.POLL` operations and the events it returned, in order: a poll that ends with `ST = 0` returns its
events on `DOUT`, one that ends in `OutOfRange` returns none. -/
inductive PollRun (s : State) : List TouchEvent → State → Prop where
  | start : PollRun s [] s
  | poll {es evs : List TouchEvent} {u t : State} (before : PollRun s es u) (step : exec .tPoll u = .next t)
      (ok : t.st = 0) (events : t.dout = eventBytes evs) : PollRun s (es ++ evs) t
  | short {es : List TouchEvent} {u t : State} (before : PollRun s es u) (step : exec .tPoll u = .next t)
      (out : t.st = 3) : PollRun s es t

/-! What an ERS operation sends, whatever the panel's busy line answers. -/

/-- The records of R216. -/
def busSetupRecords : List Record :=
  [.lineConfig .eRst .output .none, .lineConfig .eDc .output .none, .lineConfig .eBusy .input .falling,
   .spiConfig 8 .msbFirst 4 0 20000000 0]

/-- The records of an upload or configuration operation in an environment without failures and with a panel that is
never busy; nothing for an operation that calls the panel not at all. -/
def plannedRecords (i : Instr) (par : Params) (p : PanelUnit) : List Record :=
  match i with
  | .eInit w h => busSetupRecords ++ applyConfigRecords par w h .partialMode
  | .eSetmodeP => applyConfigRecords par p.width p.height .partialMode
  | .eSetmodeF => applyConfigRecords par p.width p.height .fullMode
  | .eClearW => uploadPlan par p (uploadFullRecords p.width p.height (uniformFrame false p))
  | .eClearB => uploadPlan par p (uploadFullRecords p.width p.height (uniformFrame true p))
  | .eRawfb din => uploadPlan par p (uploadFullRecords p.width p.height din)
  | .ePutbmp px py bw bh din => uploadPlan par p (uploadBitmapRecords par p px.toInt py.toInt bw bh din)
  | .ePoweroff => cmdRecords 0x10 [0x01]
  | _ => []

/-- The operations that upload image data: "Exactly three host operations" (R250). -/
def isUpload : Instr → Bool
  | .eClearW | .eClearB | .eRawfb _ | .ePutbmp _ _ _ _ _ => true
  | _ => false

end Sys2Proof.Machine
end

