-- ==== Sys2Proof/Certificates/Slice0/Obligations.lean ====
section
/-! DEFINITION. The statements about the model, from the numbered rules of spec/. In a statement, `r`, `o` and `d` bound
by `∃` under a next state are the ports `R` and `DOUT` where the operation does not define them (R93, R296) and the
model's draw counter: nothing is said of them. A next state written as an update of the state before says that every
field it does not name is unchanged. -/

open Sys2Proof Sys2Proof.Machine

/-! Encoding and stepping. -/

/-- R93, R108, R66: no operand bit of a well-formed instruction is lost between its encoding and its decoding. -/
def Obligations.DecodeInvertsEncode : Prop :=
  ∀ i : Instr, i.wellFormed = true → decode (encode i) = .ok i

/-- R93, R108, R66: what decodes is well formed and stands in the channel and under the word it is encoded by: no word
has two meanings. -/
def Obligations.DecodedWordIsItsRow : Prop :=
  ∀ (q : Request) (i : Instr), decode q = .ok i →
    (encode i).chan = q.chan ∧ (encode i).word = q.word ∧ i.wellFormed = true

/-- R93, R108, R66: a few words of the table and the instructions they stand for. Two clauses are the model's choice
(notes/assumptions/6.md): that the 16-bit word 0x8051 is a touch access, where R96 makes it illegal as a command word,
and that opcode 0x3c with zero ports is the Partial form. -/
def Obligations.SampleWordsDecode : Prop :=
  decodeTableWord 16 0x0301 = some .bRead2 ∧ decodeTableWord 16 0x0502 = some (.bSeekEnd 0) ∧
    decodeTableWord 16 0x1400 = some .tPoll ∧ decodeTableWord 16 0x2402 = some .eSetautoWhite ∧
    decodeTableWord 16 0x2503 = none ∧ decodeTableWord 8 0x3c = some (.epdBorderWaveformControl .partialMode) ∧
    decodeTableWord 16 0x8051 = some .touchConfigRead

/-- R96: a command word outside R93 raises `IllegalOp` with no state change and no outward transaction, and every word
of R93 is a host operation. -/
def Obligations.ReservedWordsAreIllegal : Prop :=
  ∀ (cw : BitVec 16) (a b : BitVec 64) (din : List Byte),
    (cw.toNat ∉ hostWords → ∀ s : State, ∃ r o d,
      step (s.presentRequest ⟨.host, cw, a, b, din⟩) =
        .next { s with st := 5, r := r, dout := o, drawn := d }) ∧
    (cw.toNat ∈ hostWords → ∃ i, decode ⟨.host, cw, a, b, din⟩ = .ok i ∧ i.channel = .host)

/-- R2, R12: a step takes the next request and runs its instruction on the state without that request; with no request
presented nothing changes. -/
def Obligations.StepRunsTheDecodedInstruction : Prop :=
  ∀ s : State,
    (∀ (q : Request) (rest : List Request) (i : Instr), s.requests = q :: rest → decode q = .ok i →
      step s = exec i { s with requests := rest }) ∧
    (s.requests = [] → step s = .next s)

/-! Unit BBC. -/

/-- R147, R148: the value's bytes in the named order on `DOUT`, high bits of `A` ignored, no state read or written. -/
def Obligations.FreshByteSequences : Prop :=
  ∀ s : State,
    (∀ v, ∃ r d, exec (.bTobe1 v) s = .next { s with st := 0, r := r, dout := [v], drawn := d }) ∧
    (∀ v, ∃ r d, exec (.bTobe2 v) s =
      .next { s with st := 0, r := r, dout := [v.extractLsb' 8 8, v.extractLsb' 0 8], drawn := d }) ∧
    (∀ v, ∃ r d, exec (.bTobe4 v) s =
      .next { s with
        st := 0, r := r, drawn := d
        dout := [v.extractLsb' 24 8, v.extractLsb' 16 8, v.extractLsb' 8 8, v.extractLsb' 0 8] }) ∧
    (∀ v, ∃ r d, exec (.bTobe8 v) s =
      .next { s with
        st := 0, r := r, drawn := d
        dout := [v.extractLsb' 56 8, v.extractLsb' 48 8, v.extractLsb' 40 8, v.extractLsb' 32 8,
          v.extractLsb' 24 8, v.extractLsb' 16 8, v.extractLsb' 8 8, v.extractLsb' 0 8] }) ∧
    (∀ v, ∃ r d, exec (.bTole1 v) s = .next { s with st := 0, r := r, dout := [v], drawn := d }) ∧
    (∀ v, ∃ r d, exec (.bTole2 v) s =
      .next { s with st := 0, r := r, dout := [v.extractLsb' 0 8, v.extractLsb' 8 8], drawn := d }) ∧
    (∀ v, ∃ r d, exec (.bTole4 v) s =
      .next { s with
        st := 0, r := r, drawn := d
        dout := [v.extractLsb' 0 8, v.extractLsb' 8 8, v.extractLsb' 16 8, v.extractLsb' 24 8] }) ∧
    (∀ v, ∃ r d, exec (.bTole8 v) s =
      .next { s with
        st := 0, r := r, drawn := d
        dout := [v.extractLsb' 0 8, v.extractLsb' 8 8, v.extractLsb' 16 8, v.extractLsb' 24 8,
          v.extractLsb' 32 8, v.extractLsb' 40 8, v.extractLsb' 48 8, v.extractLsb' 56 8] }) ∧
    (∀ a b din,
      decodeHost 0x0000 a b din = .ok (.bTobe1 (a.extractLsb' 0 8)) ∧
      decodeHost 0x0001 a b din = .ok (.bTobe2 (a.extractLsb' 0 16)) ∧
      decodeHost 0x0002 a b din = .ok (.bTobe4 (a.extractLsb' 0 32)) ∧
      decodeHost 0x0003 a b din = .ok (.bTobe8 a) ∧
      decodeHost 0x0100 a b din = .ok (.bTole1 (a.extractLsb' 0 8)) ∧
      decodeHost 0x0101 a b din = .ok (.bTole2 (a.extractLsb' 0 16)) ∧
      decodeHost 0x0102 a b din = .ok (.bTole4 (a.extractLsb' 0 32)) ∧
      decodeHost 0x0103 a b din = .ok (.bTole8 a))

/-- R140: `B.WRAP` (`bWrapLe`, `bWrapBe`) replaces the buffer by `DIN`, sets the byte order and the cursor, or raises
`CapacityExceeded` with the state unchanged. -/
def Obligations.WrapLoadsTheBuffer : Prop :=
  ∀ (s : State) (din : List Byte),
    (din.length ≤ s.par.bufMax.toNat →
      (∃ m r o d, exec (.bWrapLe din) s =
        .next { s with st := 0, r := r, dout := o, drawn := d, buf := m, cur := 0, bend := .little } ∧
          m.wf ∧ m.toBytes = din) ∧
      (∃ m r o d, exec (.bWrapBe din) s =
        .next { s with st := 0, r := r, dout := o, drawn := d, buf := m, cur := 0, bend := .big } ∧
          m.wf ∧ m.toBytes = din)) ∧
    (s.par.bufMax.toNat < din.length →
      (∃ r o d, exec (.bWrapLe din) s = .next { s with st := 4, r := r, dout := o, drawn := d }) ∧
      (∃ r o d, exec (.bWrapBe din) s = .next { s with st := 4, r := r, dout := o, drawn := d })) ∧
    (∀ a b, decodeHost 0x0200 a b din = .ok (.bWrapLe din) ∧ decodeHost 0x0201 a b din = .ok (.bWrapBe din))

/-- R141: `B.READ` (`bRead1`, `bRead2`, `bRead4`, `bRead8` by `sz`) returns the value of the next `n` bytes and moves
the cursor past them, and raises `OutOfRange` with nothing changed exactly when fewer than `n` remain. -/
def Obligations.ReadReturnsTheNextBytes : Prop :=
  ∀ (s : State) (sz : Fin 4),
    (widthOf sz ≤ s.buf.size - s.cur.toNat → ∃ o d,
      exec (readOf sz) s =
        .next { s with
          st := 0, dout := o, drawn := d
          r := BitVec.ofNat 64 (valOf s.bend (s.buf.memRead s.cur.toNat (widthOf sz)))
          cur := s.cur + BitVec.ofNat 64 (widthOf sz) }) ∧
    (s.buf.size - s.cur.toNat < widthOf sz → ∃ r o d,
      exec (readOf sz) s = .next { s with st := 3, r := r, dout := o, drawn := d }) ∧
    (∀ a b din, decodeHost (0x0300 + BitVec.ofNat 16 sz) a b din = .ok (readOf sz))

/-- R143: `B.WRITE` (`bWrite1`, `bWrite2`, `bWrite4`, `bWrite8` by `sz`) keeps the bytes below the cursor and beyond
the write, puts the value's bytes between them, grows exactly as far as it must, moves the cursor past the write; it
raises only `CapacityExceeded`, with the state unchanged. The premise `cur <= len` is R23. -/
def Obligations.WriteReplacesOrGrows : Prop :=
  ∀ (s : State) (sz : Fin 4) (a : BitVec 64), s.cur.toNat ≤ s.buf.size →
    (s.cur.toNat + widthOf sz ≤ s.par.bufMax.toNat → ∃ m r o d,
      exec (writeOf sz a) s =
        .next { s with
          st := 0, r := r, dout := o, drawn := d
          buf := m, cur := s.cur + BitVec.ofNat 64 (widthOf sz) } ∧
        m.wf ∧
        m.toBytes = s.buf.toBytes.take s.cur.toNat ++ bytesOf s.bend (widthOf sz) a.toNat ++
          s.buf.toBytes.drop (s.cur.toNat + widthOf sz)) ∧
    (s.par.bufMax.toNat < s.cur.toNat + widthOf sz → ∃ r o d,
      exec (writeOf sz a) s = .next { s with st := 4, r := r, dout := o, drawn := d }) ∧
    (∀ b din, decodeHost (0x0400 + BitVec.ofNat 16 sz) a b din = .ok (writeOf sz a))

/-- R151: after a write, every offset below the cursor and from the write's end to the old length reads as before, the
cursor has moved by `n`, and the length is the larger of the old one and the write's end. -/
def Obligations.WriteLosesNothing : Prop :=
  ∀ (s t : State) (sz : Fin 4) (a : BitVec 64), s.buf.wf → s.cur.toNat ≤ s.buf.size →
    exec (writeOf sz a) s = .next t → t.st = 0 →
    (∀ i, i < s.cur.toNat ∨ (s.cur.toNat + widthOf sz ≤ i ∧ i < s.buf.size) → t.buf.readByte i = s.buf.readByte i) ∧
    t.cur.toNat = s.cur.toNat + widthOf sz ∧ t.buf.size = max s.buf.size (s.cur.toNat + widthOf sz)

/-- R62: where the bytes of a written value stand, in either byte order, and that only a wrap changes the order. -/
def Obligations.ByteOrderOfTheBuffer : Prop :=
  (∀ (s t : State) (sz : Fin 4) (a : BitVec 64), s.cur.toNat ≤ s.buf.size →
    exec (writeOf sz a) s = .next t → t.st = 0 → ∀ i < widthOf sz,
      t.buf.readByte (s.cur.toNat + i) =
        some (match s.bend with
          | .little => a.extractLsb' (8 * i) 8
          | .big => a.extractLsb' (8 * (widthOf sz - 1 - i)) 8)) ∧
  (∀ (i : Instr) (s t : State), (∀ din, i ≠ .bWrapLe din ∧ i ≠ .bWrapBe din) → exec i s = .next t →
    t.bend = s.bend)

/-- R142: the two conversions as sums and as bit fields, inverse to each other, and equal to the source's "copies, then
converts endianness if buffer endianness ≠ host endianness" on either host. -/
def Obligations.ValueAndByteConversion : Prop :=
  (∀ s : List Byte,
    valOf .little s = ∑ i ∈ Finset.range s.length, (s.getD i 0).toNat * 2 ^ (8 * i) ∧
    valOf .big s = ∑ i ∈ Finset.range s.length, (s.getD i 0).toNat * 2 ^ (8 * (s.length - 1 - i))) ∧
  (∀ n v : Nat, v < 2 ^ (8 * n) →
    (∀ i < n,
      (bytesOf .little n v)[i]? = some (BitVec.ofNat 8 (v / 2 ^ (8 * i))) ∧
      (bytesOf .big n v)[i]? = some (BitVec.ofNat 8 (v / 2 ^ (8 * (n - 1 - i))))) ∧
    ∀ e, (bytesOf e n v).length = n ∧ valOf e (bytesOf e n v) = v) ∧
  (∀ (e : Endian) (s : List Byte), bytesOf e s.length (valOf e s) = s) ∧
  (∀ (host e : Endian) (s : List Byte) (n v : Nat),
    valViaHost host e s = valOf e s ∧ bytesViaHost host e n v = bytesOf e n v)

/-- R145: `B.SEEK` (`bSeekBeg`, `bSeekCur`, `bSeekEnd` by `org`) moves the cursor to base plus offset, computed without
wrap, where that lies in `0..len`, and raises `OutOfRange` with nothing changed elsewhere. -/
def Obligations.SeekMovesInsideTheBuffer : Prop :=
  ∀ (s : State) (org : Origin) (off : BitVec 64) (target : Int), s.bufferInv →
    target = (match org with
      | .fromBegin => 0
      | .fromCurrent => (s.cur.toNat : Int)
      | .fromEnd => (s.buf.size : Int)) + off.toInt →
    (0 ≤ target → target ≤ s.buf.size → ∃ c r o d,
      exec (seekOf org off) s = .next { s with st := 0, r := r, dout := o, drawn := d, cur := c } ∧
        (c.toNat : Int) = target) ∧
    (target < 0 ∨ (s.buf.size : Int) < target → ∃ r o d,
      exec (seekOf org off) s = .next { s with st := 3, r := r, dout := o, drawn := d }) ∧
    (∀ b din, decodeHost (match org with
        | .fromBegin => 0x0500
        | .fromCurrent => 0x0501
        | .fromEnd => 0x0502) off b din = .ok (seekOf org off) ∧
      decodeHost 0x0503 off b din = .error .reservedOrigin)

/-- R146, R149: `B.TELL` returns the cursor, `B.DUMP` the bytes; neither changes state. -/
def Obligations.TellAndDump : Prop :=
  ∀ s : State,
    (∃ o d, exec .bTell s = .next { s with st := 0, r := s.cur, dout := o, drawn := d }) ∧
    (∃ r d, exec .bDump s = .next { s with st := 0, r := r, dout := s.buf.toBytes, drawn := d }) ∧
    (∀ a b din, decodeHost 0x0600 a b din = .ok .bTell ∧ decodeHost 0x0700 a b din = .ok .bDump)

/-- R150: writing a value, seeking back and reading gives the value; so do the free conversions. -/
def Obligations.CodecRoundTrip : Prop :=
  (∀ (s : State) (sz : Fin 4) (v : BitVec 64), s.bufferInv → v.toNat < 2 ^ (8 * widthOf sz) →
    s.cur.toNat + widthOf sz ≤ s.par.bufMax.toNat →
    ∃ s1 s2 s3, exec (writeOf sz v) s = .next s1 ∧ exec (.bSeekBeg s.cur) s1 = .next s2 ∧
      exec (readOf sz) s2 = .next s3 ∧ s1.st = 0 ∧ s2.st = 0 ∧ s3.st = 0 ∧ s3.r = v) ∧
  (∀ (s : State) (sz : Fin 4) (v : BitVec 64), v.toNat < 2 ^ (8 * widthOf sz) →
    ∃ t u, exec (tobeOf sz v) s = .next t ∧ valOf .big t.dout = v.toNat ∧
      exec (toleOf sz v) s = .next u ∧ valOf .little u.dout = v.toNat)

/-! Unit TES. -/

/-- R173: every path of `T.INIT` by what the two register reads answer: success, `ProtocolMismatch`, a failed read and
a short answer, with the reset sequence of R172 first on all of them. -/
def Obligations.TouchInitialisation : Prop :=
  ∀ (s : State) (ident config : List Byte) (rest : List (Option (List Byte))),
    (s.answers.regRead = some ident :: some config :: rest → ident.take 4 = [0x31, 0x31, 0x35, 0x38] →
      5 ≤ config.length → ∃ r o d,
      exec .tInit s =
        .next { s with
          st := 0, r := r, dout := o, drawn := d, tReady := true
          touch :=
            ⟨[], ⟨config.getD 1 0 ++ config.getD 0 0, config.getD 3 0 ++ config.getD 2 0, config.getD 4 0⟩, false⟩
          trace := s.trace ++ touchResetRecords s.par ++
            [readRecord s.par 0x8140 4 ident, readRecord s.par 0x8051 5 config]
          answers := { s.answers with regRead := rest } }) ∧
    (s.answers.regRead = some ident :: rest → 4 ≤ ident.length → ident.take 4 ≠ [0x31, 0x31, 0x35, 0x38] →
      ∃ r o d, exec .tInit s =
        .next { s with
          st := 2, r := r, dout := o, drawn := d, tReady := false
          touch := ⟨[], s.touch.cfg, false⟩
          trace := s.trace ++ touchResetRecords s.par ++ [readRecord s.par 0x8140 4 ident]
          answers := { s.answers with regRead := rest } }) ∧
    (s.answers.regRead = some ident :: rest → ident.length < 4 → ∃ r o d,
      exec .tInit s =
        .next { s with
          st := 3, r := r, dout := o, drawn := d, tReady := false
          touch := ⟨[], s.touch.cfg, false⟩
          trace := s.trace ++ touchResetRecords s.par ++ [readRecord s.par 0x8140 4 ident]
          answers := { s.answers with regRead := rest } }) ∧
    (s.answers.regRead = none :: rest → ∃ u r o d,
      exec .tInit s =
        .next { s with
          st := 1, r := r, dout := o, drawn := d, tReady := false, touch := u
          trace := s.trace ++ touchResetRecords s.par ++
            [.i2cRead (touchDevAddr s.par) [0x81, 0x40] 4 none]
          answers := { s.answers with regRead := rest } }) ∧
    (s.answers.regRead = some ident :: some config :: rest → ident.take 4 = [0x31, 0x31, 0x35, 0x38] →
      config.length < 5 → ∃ c r o d,
      exec .tInit s =
        .next { s with
          st := 3, r := r, dout := o, drawn := d, tReady := false, touch := ⟨[], c, false⟩
          trace := s.trace ++ touchResetRecords s.par ++
            [readRecord s.par 0x8140 4 ident, readRecord s.par 0x8051 5 config]
          answers := { s.answers with regRead := rest } }) ∧
    (s.answers.regRead = some ident :: none :: rest → ident.take 4 = [0x31, 0x31, 0x35, 0x38] → ∃ u r o d,
      exec .tInit s =
        .next { s with
          st := 1, r := r, dout := o, drawn := d, tReady := false, touch := u
          trace := s.trace ++ touchResetRecords s.par ++
            [readRecord s.par 0x8140 4 ident, .i2cRead (touchDevAddr s.par) [0x80, 0x51] 5 none]
          answers := { s.answers with regRead := rest } }) ∧
    (∀ a b din, decodeHost 0x1000 a b din = .ok .tInit)

/-- R174: `T.CFG` returns the configuration field by field and changes nothing, or raises `NotReady`. -/
def Obligations.TouchConfiguration : Prop :=
  ∀ s : State,
    (s.tReady = true → ∃ r o d,
      exec .tCfg s = .next { s with st := 0, r := r, dout := o, drawn := d } ∧
        r.extractLsb' 0 16 = s.touch.cfg.maxX ∧ r.extractLsb' 16 16 = s.touch.cfg.maxY ∧
        r.extractLsb' 32 8 = s.touch.cfg.maxTouchPoints ∧ r.extractLsb' 40 24 = 0) ∧
    (s.tReady = false → ∃ r o d, exec .tCfg s = .next { s with st := 6, r := r, dout := o, drawn := d }) ∧
    (∀ a b din, decodeHost 0x1100 a b din = .ok .tCfg)

/-- R175: `T.LOCK` writes Lock Control, sets `locked` and empties the table; a failed write ends it in
`TransportError`, and an unready unit in `NotReady`. -/
def Obligations.TouchLock : Prop :=
  ∀ (s : State) (rest : List Bool),
    (s.tReady = true → s.answers.regWrite = true :: rest → ∃ r o d,
      exec .tLock s =
        .next { s with
          st := 0, r := r, dout := o, drawn := d
          touch := ⟨[], s.touch.cfg, true⟩
          trace := s.trace ++ [.i2cWrite (touchDevAddr s.par) [0x80, 0x40] [0x08, 0x00, 0xf8] true]
          answers := { s.answers with regWrite := rest } }) ∧
    (s.tReady = true → s.answers.regWrite = false :: rest → ∃ u r o d,
      exec .tLock s =
        .next { s with
          st := 1, r := r, dout := o, drawn := d, tReady := false, touch := u
          trace := s.trace ++ [.i2cWrite (touchDevAddr s.par) [0x80, 0x40] [0x08, 0x00, 0xf8] false]
          answers := { s.answers with regWrite := rest } }) ∧
    (s.tReady = false → ∃ r o d, exec .tLock s = .next { s with st := 6, r := r, dout := o, drawn := d }) ∧
    (∀ a b din, decodeHost 0x1200 a b din = .ok .tLock)

/-- R187, R306: `T.WAIT` returns whether the edge fired, an expiry being no error; with the timeout unset and neither
edge nor expiry ever coming it never ends; an unready unit raises `NotReady`. That an unset timeout answered `expired`
ends with false is the model's choice (notes/assumptions/18.md). -/
def Obligations.TouchWait : Prop :=
  ∀ (s : State) (a : BitVec 64) (ans : WaitAnswer) (rest : List WaitAnswer) (timeout : Timeout),
    timeout = (if a = 0xffffffffffffffff then .unset else .ms a.toNat) →
    (s.tReady = true → s.answers.touchWait = ans :: rest → (ans ≠ .never ∨ timeout ≠ .unset) → ∃ o d,
      exec (.tWait a) s =
        .next { s with
          st := 0, dout := o, drawn := d
          r := if ans = .fired then 1 else 0
          trace := s.trace ++ [.lineWait .tInt timeout (decide (ans = .fired))]
          answers := { s.answers with touchWait := rest } }) ∧
    (s.tReady = true → s.answers.touchWait = .never :: rest → timeout = .unset →
      exec (.tWait a) s = .fault .waitNeverAnswered) ∧
    (s.tReady = false → ∃ r o d, exec (.tWait a) s = .next { s with st := 6, r := r, dout := o, drawn := d }) ∧
    (∀ b din, decodeHost 0x1300 a b din = .ok (.tWait a))

/-- R180: a poll with no edge pending returns no events, having touched no register and no state. -/
def Obligations.PollWithoutPendingEvent : Prop :=
  ∀ (s : State) (ans : WaitAnswer) (rest : List WaitAnswer), s.tReady = true →
    s.answers.touchWait = ans :: rest → ans ≠ .fired → ∃ d,
    exec .tPoll s =
      .next { s with
        st := 0, r := 0, dout := [], drawn := d
        trace := s.trace ++ [.lineWait .tInt (.ms 0) false]
        answers := { s.answers with touchWait := rest } }

/-- R177: a locked poll reads Lock Status; 0xcc resets the controller, unlocks and returns one Unlock event; any other
value is acknowledged there and returns no events. Touch Status is neither read nor written. -/
def Obligations.LockedPoll : Prop :=
  ∀ (s : State) (status : Byte) (more : List Byte) (waits : List WaitAnswer) (reads : List (Option (List Byte))),
    s.tReady = true → s.touch.locked = true → s.answers.touchWait = .fired :: waits →
    s.answers.regRead = some (status :: more) :: reads →
    (status = 0xcc → ∃ d,
      exec .tPoll s =
        .next { s with
          st := 0, r := 1, drawn := d
          dout := eventBytes [⟨.unlock, s.par.unlockFields.touchId, s.par.unlockFields.x, s.par.unlockFields.y,
            s.par.unlockFields.size⟩]
          touch := ⟨[], s.touch.cfg, false⟩
          trace := s.trace ++ [pollRecord true, readRecord s.par 0x814c 1 (status :: more)] ++
            touchResetRecords s.par
          answers := { s.answers with touchWait := waits, regRead := reads } }) ∧
    (status ≠ 0xcc → ∀ writes, s.answers.regWrite = true :: writes → ∃ d,
      exec .tPoll s =
        .next { s with
          st := 0, r := 0, dout := [], drawn := d
          trace := s.trace ++ [pollRecord true, readRecord s.par 0x814c 1 (status :: more),
            writeRecord s.par 0x814c [0x00]]
          answers := { s.answers with touchWait := waits, regRead := reads, regWrite := writes } })

/-- R178: a status byte of zero returns no events; nothing is written and no tracked id is released. -/
def Obligations.PollOfStatusZero : Prop :=
  ∀ (s : State) (more : List Byte) (waits : List WaitAnswer) (reads : List (Option (List Byte))),
    s.tReady = true → s.touch.locked = false → s.answers.touchWait = .fired :: waits →
    s.answers.regRead = some (0x00 :: more) :: reads → ∃ d,
    exec .tPoll s =
      .next { s with
        st := 0, r := 0, dout := [], drawn := d
        trace := s.trace ++ [pollRecord true, readRecord s.par 0x814e 1 (0x00 :: more)]
        answers := { s.answers with touchWait := waits, regRead := reads } }

/-- R181: a non-zero status byte whose count is 0 or above 5 is acknowledged, and every tracked id is released, each
event with the stored id, x, y and size, in some order; the table is empty afterwards. No frame is read. -/
def Obligations.MalformedCountReleasesAll : Prop :=
  ∀ (s : State) (status : Byte) (more : List Byte) (waits : List WaitAnswer) (reads : List (Option (List Byte)))
    (writes : List Bool),
    s.tReady = true → s.touch.locked = false → s.answers.touchWait = .fired :: waits →
    s.answers.regRead = some (status :: more) :: reads → s.answers.regWrite = true :: writes → status ≠ 0 →
    ((status &&& 0x0f) = 0 ∨ 5 < (status &&& 0x0f).toNat) →
    ∃ (evs : List TouchEvent) (d : Nat),
      evs.Perm (s.touch.table.map fun p => { p.2 with kind := .release }) ∧
      exec .tPoll s =
        .next { s with
          st := 0, drawn := d
          r := BitVec.ofNat 64 s.touch.table.length
          dout := eventBytes evs
          touch := { s.touch with table := [] }
          trace := s.trace ++ [pollRecord true, readRecord s.par 0x814e 1 (status :: more),
            writeRecord s.par 0x814e [0x00]]
          answers := { s.answers with
            touchWait := waits, regRead := reads, regWrite := writes, eventOrder := s.answers.eventOrder.tail } }

/-- R183 to R186 (with R179, R182, R104, R105): a valid frame of `count` records with different ids. A new id is
stored and reported as Touch; a tracked id that differs in x, y or size is stored and reported as Drag; one that does
not is left as it is, without an event; a tracked id the frame lacks is removed and reported as Release with its
stored x, y and size. There is one event per id and the order is open. The premise on the table is R30. -/
def Obligations.ValidFrameClassification : Prop :=
  ∀ (s : State) (status : Byte) (more lead tail reserved : List Byte) (recs : List TouchRecord)
    (waits : List WaitAnswer) (reads : List (Option (List Byte))) (writes : List Bool) (frame : List Byte),
    s.tReady = true → s.touch.locked = false → tableInv s.touch.table → s.answers.touchWait = .fired :: waits →
    recs.length = (status &&& 0x0f).toNat → 1 ≤ recs.length → recs.length ≤ 5 →
    (recs.map TouchRecord.touchId).Nodup → lead.length = 1 → reserved.length = recs.length →
    frame = lead ++ (List.zipWith recordBytes recs reserved).flatten ++ tail →
    s.answers.regRead = some (status :: more) :: some frame :: reads → s.answers.regWrite = true :: writes →
    ∃ (evs : List TouchEvent) (table : List (BitVec 8 × TouchEvent)) (d : Nat),
      exec .tPoll s =
        .next { s with
          st := 0, drawn := d
          r := BitVec.ofNat 64 evs.length
          dout := eventBytes evs
          touch := { s.touch with table := table }
          trace := s.trace ++ [pollRecord true, readRecord s.par 0x814e 1 (status :: more),
            writeRecord s.par 0x814e [0x00], readRecord s.par 0x814e (1 + 8 * recs.length) frame]
          answers := { s.answers with
            touchWait := waits, regRead := reads, regWrite := writes, eventOrder := s.answers.eventOrder.tail } } ∧
      (∀ rec ∈ recs, tableFind rec.touchId table =
        match tableFind rec.touchId s.touch.table with
        | none => some ⟨.touch, rec.touchId, rec.x, rec.y, rec.size⟩
        | some old =>
          if rec.x ≠ old.x ∨ rec.y ≠ old.y ∨ rec.size ≠ old.size
          then some ⟨.drag, rec.touchId, rec.x, rec.y, rec.size⟩ else some old) ∧
      (∀ id, id ∉ recs.map TouchRecord.touchId → tableFind id table = none) ∧
      (evs.map TouchEvent.touchId).Nodup ∧
      (∀ e, e ∈ evs ↔
        (∃ rec ∈ recs, tableFind rec.touchId s.touch.table = none ∧
          e = ⟨.touch, rec.touchId, rec.x, rec.y, rec.size⟩) ∨
        (∃ rec ∈ recs, ∃ old, tableFind rec.touchId s.touch.table = some old ∧
          (rec.x ≠ old.x ∨ rec.y ≠ old.y ∨ rec.size ≠ old.size) ∧
          e = ⟨.drag, rec.touchId, rec.x, rec.y, rec.size⟩) ∨
        (∃ id old, id ∉ recs.map TouchRecord.touchId ∧ tableFind id s.touch.table = some old ∧
          e = ⟨.release, id, old.x, old.y, old.size⟩))

/-- R182, D18: a frame that repeats an id has no specified result: the model refuses. -/
def Obligations.RepeatedTouchIdIsRefused : Prop :=
  ∀ (s : State) (status : Byte) (more lead tail reserved : List Byte) (recs : List TouchRecord)
    (waits : List WaitAnswer) (reads : List (Option (List Byte))) (writes : List Bool),
    s.tReady = true → s.touch.locked = false → s.answers.touchWait = .fired :: waits →
    recs.length = (status &&& 0x0f).toNat → 1 ≤ recs.length → recs.length ≤ 5 →
    ¬ (recs.map TouchRecord.touchId).Nodup → lead.length = 1 → reserved.length = recs.length →
    s.answers.regRead =
      some (status :: more) :: some (lead ++ (List.zipWith recordBytes recs reserved).flatten ++ tail) :: reads →
    s.answers.regWrite = true :: writes →
    exec .tPoll s = .refused .duplicateTouchId

/-- R171, U8: a frame answered with too few bytes ends the poll in `OutOfRange`, the acknowledge sent, table, lock and
ready flag as they were. -/
def Obligations.ShortFrameIsOutOfRange : Prop :=
  ∀ (s : State) (status : Byte) (more frame : List Byte) (waits : List WaitAnswer)
    (reads : List (Option (List Byte))) (writes : List Bool),
    s.tReady = true → s.touch.locked = false → s.answers.touchWait = .fired :: waits →
    1 ≤ (status &&& 0x0f).toNat → (status &&& 0x0f).toNat ≤ 5 → frame.length < 1 + 8 * (status &&& 0x0f).toNat →
    s.answers.regRead = some (status :: more) :: some frame :: reads → s.answers.regWrite = true :: writes →
    ∃ r o d, exec .tPoll s =
      .next { s with
        st := 3, r := r, dout := o, drawn := d
        trace := s.trace ++ [pollRecord true, readRecord s.par 0x814e 1 (status :: more),
          writeRecord s.par 0x814e [0x00], readRecord s.par 0x814e (1 + 8 * (status &&& 0x0f).toNat) frame]
        answers := { s.answers with touchWait := waits, regRead := reads, regWrite := writes } }

/-- R95, R94: the fields of an event word and its bytes on `DOUT`, with the spec's example. -/
def Obligations.EventWordLayout : Prop :=
  (∀ e : TouchEvent,
    (eventWord e).extractLsb' 0 3 = (match e.kind with
      | .absent => 0 | .touch => 1 | .drag => 2 | .release => 3 | .unlock => 4) ∧
    (eventWord e).extractLsb' 3 5 = 0 ∧ (eventWord e).extractLsb' 8 8 = e.touchId ∧
    (eventWord e).extractLsb' 16 16 = e.x ∧ (eventWord e).extractLsb' 32 16 = e.y ∧
    (eventWord e).extractLsb' 48 16 = e.size ∧
    eventBytes [e] = (List.range 8).map fun k => (eventWord e).extractLsb' (8 * k) 8) ∧
  (∀ a b, eventBytes (a ++ b) = eventBytes a ++ eventBytes b) ∧
  eventBytes [⟨.touch, 3, 10, 20, 5⟩] = [0x01, 0x03, 0x0a, 0x00, 0x14, 0x00, 0x05, 0x00]

/-- R186, D17: the order of a poll's events is left open: a choice code gives a permutation, and every permutation has
a code. -/
def Obligations.EveryEventOrderIsPossible : Prop :=
  ∀ evs evs' : List TouchEvent, (∃ code, arrange code evs = evs') ↔ evs'.Perm evs

/-- R192: over any run of polls of an unlocked unit, the events of one id are a word of
`(Touch Drag* Release)* (Touch Drag*)?` from whether the id was tracked before to whether it is tracked after. -/
def Obligations.EventGrammarOverPolls : Prop :=
  ∀ (s t : State) (es : List TouchEvent) (id : BitVec 8), s.tReady = true → s.touch.locked = false →
    tableInv s.touch.table → PollRun s es t →
    grammarRun (tableFind id s.touch.table).isSome ((es.filter fun e => e.touchId == id).map TouchEvent.kind) =
      some (tableFind id t.touch.table).isSome

/-- R176: a poll that ends with `ST = 0` returns at most 10 events. -/
def Obligations.AtMostTenEvents : Prop :=
  ∀ s t : State, s.touchInv → exec .tPoll s = .next t → t.st = 0 → t.r.toNat ≤ 10

/-! Errors, readiness, isolation, the trace. -/

/-- R299: while a unit's ready flag is false, every host operation of it but its `INIT` raises `NotReady` with nothing
changed and nothing emitted. -/
def Obligations.UnreadyUnitsRefuse : Prop :=
  ∀ (i : Instr) (s : State), i.channel = .host →
    (unitOf i = .tes → i ≠ .tInit → s.tReady = false → ∃ r o d,
      exec i s = .next { s with st := 6, r := r, dout := o, drawn := d }) ∧
    (unitOf i = .ers → (∀ w h, i ≠ .eInit w h) → s.eReady = false → ∃ r o d,
      exec i s = .next { s with st := 6, r := r, dout := o, drawn := d })

/-- R299, R300, R292: a `TransportError` clears the ready flag of the unit it arose in, which is never BBC; a
`ProtocolMismatch` arises in `T.INIT` only and leaves TES not ready; no other error clears a flag, but for an `INIT`
that clears its own first. -/
def Obligations.ErrorsClearTheReadyFlag : Prop :=
  ∀ (i : Instr) (s t : State), exec i s = .next t →
    (t.st = 1 → (unitOf i = .tes ∧ t.tReady = false) ∨ (unitOf i = .ers ∧ t.eReady = false)) ∧
    (t.st = 2 → i = .tInit ∧ t.tReady = false) ∧
    (t.st ≠ 1 → i ≠ .tInit → t.tReady = s.tReady) ∧
    (t.st ≠ 1 → (∀ w h, i ≠ .eInit w h) → t.eReady = s.eReady) ∧
    (t.st = 0 → i = .tInit → t.tReady = true) ∧
    (t.st = 0 → (∃ w h, i = .eInit w h) → t.eReady = true)

/-- R22, R300, R331: an instruction changes no state of another unit, whatever happens in it, and neither the
parameters nor the requests still presented. -/
def Obligations.UnitsAreIsolated : Prop :=
  ∀ (i : Instr) (s t : State), exec i s = .next t →
    (unitOf i ≠ .bbc → t.buf = s.buf ∧ t.cur = s.cur ∧ t.bend = s.bend) ∧
    (unitOf i ≠ .tes → t.touch = s.touch ∧ t.tReady = s.tReady) ∧
    (unitOf i ≠ .ers → t.panel = s.panel ∧ t.eReady = s.eReady) ∧
    (unitOf i = .bbc → t.trace = s.trace ∧ t.answers = s.answers) ∧
    t.par = s.par ∧ t.requests = s.requests

/-- R296, R291: the trace only grows; the call that fails is the last record of its operation, and the operation ends
with `TransportError` exactly when there is one. -/
def Obligations.AFailedCallEndsItsOperation : Prop :=
  ∀ (i : Instr) (s t : State), exec i s = .next t →
    ∃ es, t.trace = s.trace ++ es ∧ (∀ e ∈ es.dropLast, callFailed e = false) ∧
      (t.st = 1 ↔ ∃ e, es.getLast? = some e ∧ callFailed e = true)

/-- R210, R109 (f), R107: every byte an instruction sends with the data/command line low is one of the fourteen
opcodes. -/
def Obligations.OnlyTheFourteenOpcodes : Prop :=
  ∀ (i : Instr) (s t : State), exec i s = .next t →
    ∃ es, t.trace = s.trace ++ es ∧ ∀ dc b, (false, b) ∈ taggedBytes dc es → b ∈ panelOpcodes

/-- R26 to R28, R31 to R37: each field of TES and ERS is written only by the operations the spec names, where no
`TransportError` leaves the unit unspecified. -/
def Obligations.FieldsHaveTheirWriters : Prop :=
  ∀ (i : Instr) (s t : State), exec i s = .next t → t.st ≠ 1 →
    (i ≠ .tInit → t.touch.cfg = s.touch.cfg ∧
      (i ≠ .tPoll → i ≠ .tLock → t.touch.table = s.touch.table ∧ t.touch.locked = s.touch.locked) ∧
      (i ≠ .tLock → t.touch.locked = true → s.touch.locked = true)) ∧
    ((∀ w h, i ≠ .eInit w h) →
      (i ≠ .eSetmodeP → i ≠ .eSetmodeF → t.panel.refreshMode = s.panel.refreshMode) ∧
      ((∀ p, i ≠ setautoOf p) → t.panel.autoRefreshMode = s.panel.autoRefreshMode) ∧
      ((∀ n, i ≠ .eSetmax n) → t.panel.maxPartialRefreshes = s.panel.maxPartialRefreshes) ∧
      ((∀ w h, i ≠ .eSetsize w h) → t.panel.width = s.panel.width ∧ t.panel.height = s.panel.height) ∧
      (isUpload i = false → t.panel.autoRefreshing = s.panel.autoRefreshing ∧
        (i ≠ .eSetmodeF → t.panel.partialRefreshCount = s.panel.partialRefreshCount)))

/-! Unit ERS: the sequencer. -/

/-- R216, R217: `E.INIT` on a panel that is never busy and whose bus does not fail: its records and the state it
establishes; a zero dimension raises `OutOfRange` with nothing emitted; a `TransportError` leaves the unit not ready. -/
def Obligations.PanelInitialisation : Prop :=
  ∀ (s : State) (w h : BitVec 16) (es : List Record),
    es = [.lineConfig .eRst .output .none, .lineConfig .eDc .output .none, .lineConfig .eBusy .input .falling,
      .spiConfig 8 .msbFirst 4 0 20000000 0] ++ applyConfigRecords s.par w h .partialMode →
    (w ≠ 0 → h ≠ 0 → s.quietFor es → ∃ r o d,
      exec (.eInit w h) s =
        .next { s.ran es with
          st := 0, r := r, dout := o, drawn := d, eReady := true
          panel := ⟨.partialMode, .noPolicy, 0, epdDefaultMaxPartial s.par, false, w, h⟩ }) ∧
    (w = 0 ∨ h = 0 → ∃ r o d, exec (.eInit w h) s = .next { s with st := 3, r := r, dout := o, drawn := d }) ∧
    (∀ t, exec (.eInit w h) s = .next t → t.st = 1 → t.eReady = false)

/-- R218: `E.SETSIZE` stores the size and emits nothing; `NotReady` is checked before `OutOfRange`. -/
def Obligations.SetDisplaySize : Prop :=
  ∀ (s : State) (w h : BitVec 16),
    (s.eReady = true → w ≠ 0 → h ≠ 0 → ∃ r o d,
      exec (.eSetsize w h) s =
        .next { s with st := 0, r := r, dout := o, drawn := d, panel := { s.panel with width := w, height := h } }) ∧
    (s.eReady = true → w = 0 ∨ h = 0 → ∃ r o d,
      exec (.eSetsize w h) s = .next { s with st := 3, r := r, dout := o, drawn := d }) ∧
    (s.eReady = false → ∃ r o d,
      exec (.eSetsize w h) s = .next { s with st := 6, r := r, dout := o, drawn := d }) ∧
    (∀ a b din, decodeHost 0x2100 a b din = .ok (.eSetsize (a.extractLsb' 0 16) (a.extractLsb' 16 16)))

/-- R219: `E.GEOM` returns position (0, 0) and size (W-1, H-1) and changes nothing, or raises `NotReady`. -/
def Obligations.DisplayGeometry : Prop :=
  ∀ s : State,
    (s.eReady = true → ∃ r o d,
      exec .eGeom s = .next { s with st := 0, r := r, dout := o, drawn := d } ∧
        r.extractLsb' 0 16 = 0 ∧ r.extractLsb' 16 16 = 0 ∧ r.extractLsb' 32 16 = s.panel.width - 1 ∧
        r.extractLsb' 48 16 = s.panel.height - 1) ∧
    (s.eReady = false → ∃ r o d, exec .eGeom s = .next { s with st := 6, r := r, dout := o, drawn := d }) ∧
    (∀ a b din, decodeHost 0x2200 a b din = .ok .eGeom)

/-- R229: `E.POWEROFF` sends DeepSleep with argument 1, waits for nothing and changes no state of its unit; it raises
`NotReady`, or `TransportError` at the first write that fails. -/
def Obligations.PowerOff : Prop :=
  ∀ s : State,
    (s.eReady = true → s.answers.spiWrite.take 2 = [true, true] → ∃ r o d,
      exec .ePoweroff s =
        .next { s with
          st := 0, r := r, dout := o, drawn := d
          trace := s.trace ++ [.lineSet .eDc false, .spiWrite [0x10] true, .lineSet .eDc true, .spiWrite [0x01] true]
          answers := { s.answers with spiWrite := s.answers.spiWrite.drop 2 } }) ∧
    (s.eReady = true → s.answers.spiWrite.take 1 = [false] → ∃ p r o d,
      exec .ePoweroff s =
        .next { s with
          st := 1, r := r, dout := o, drawn := d, eReady := false, panel := p
          trace := s.trace ++ [.lineSet .eDc false, .spiWrite [0x10] false]
          answers := { s.answers with spiWrite := s.answers.spiWrite.drop 1 } }) ∧
    (s.eReady = true → s.answers.spiWrite.take 2 = [true, false] → ∃ p r o d,
      exec .ePoweroff s =
        .next { s with
          st := 1, r := r, dout := o, drawn := d, eReady := false, panel := p
          trace := s.trace ++ [.lineSet .eDc false, .spiWrite [0x10] true, .lineSet .eDc true, .spiWrite [0x01] false]
          answers := { s.answers with spiWrite := s.answers.spiWrite.drop 2 } }) ∧
    (s.eReady = false → ∃ r o d, exec .ePoweroff s = .next { s with st := 6, r := r, dout := o, drawn := d }) ∧
    (∀ a b din, decodeHost 0x2900 a b din = .ok .ePoweroff)

/-- R212: `wait_for_busy` emits one record where the line is not asserted; four where it is, whatever the wait answers;
with the timeout unset and a wait that is never answered it never ends. It never raises. That an unset timeout answered
`expired` ends the wait is the model's choice (notes/assumptions/18.md). -/
def Obligations.WaitForBusy : Prop :=
  ∀ (s : State) (levels : List Bool),
    (s.answers.busyLevel = false :: levels →
      waitForBusy s = .ok ()
        { s with
          trace := s.trace ++ [.lineGet .eBusy false], drawn := s.drawn + 1
          answers := { s.answers with busyLevel := levels } }) ∧
    (∀ ans waits, s.answers.busyLevel = true :: levels → s.answers.busyWait = ans :: waits →
      (ans ≠ .never ∨ s.par.busyTimeout ≠ .unset) →
      waitForBusy s = .ok ()
        { s with
          trace := s.trace ++ [.lineGet .eBusy true, .lineDrain .eBusy,
            .lineWait .eBusy s.par.busyTimeout (decide (ans = .fired)), .lineDrain .eBusy]
          drawn := s.drawn + 2
          answers := { s.answers with busyLevel := levels, busyWait := waits } }) ∧
    (∀ waits, s.answers.busyLevel = true :: levels → s.answers.busyWait = .never :: waits →
      s.par.busyTimeout = .unset → waitForBusy s = .stuck .waitNeverAnswered) ∧
    (∀ e t, waitForBusy s ≠ .raised e t)

/-- R226: the overlap is the pixels common to the placed bitmap and the display; it is empty exactly when there is
none, and a bitmap with pixels fits exactly when all of them are on the display. -/
def Obligations.OverlapIsTheCommonPixels : Prop :=
  ∀ (p : PanelUnit) (px py : Int) (bw bh : BitVec 16) (o : Overlap), o = overlapOf p px py bw bh →
    (∀ x y : Int,
      (o.cx0 ≤ x ∧ x ≤ o.cx1 ∧ o.cy0 ≤ y ∧ y ≤ o.cy1) ↔
        (0 ≤ x ∧ x < p.width.toNat ∧ 0 ≤ y ∧ y < p.height.toNat ∧ px ≤ x ∧ x < px + bw.toNat ∧ py ≤ y ∧
          y < py + bh.toNat)) ∧
    (overlapEmpty o = true ↔ ∀ x y : Int, ¬ (o.cx0 ≤ x ∧ x ≤ o.cx1 ∧ o.cy0 ≤ y ∧ y ≤ o.cy1)) ∧
    (bw ≠ 0 → bh ≠ 0 →
      (overlapFits o px py bw bh = true ↔
        0 ≤ px ∧ 0 ≤ py ∧ px + bw.toNat ≤ p.width.toNat ∧ py + bh.toNat ≤ p.height.toNat))

/-- R227 (with R44): a row of a bitmap that fits is the bitmap's own bytes; a cropped row is `ceil(cw/8)` bytes, each
bit the pixel of the original at its place, or `CROP_PAD_BIT` beyond the row. -/
def Obligations.RowBytesOfABitmap : Prop :=
  ∀ (p : PanelUnit) (pad : Bool) (px py : Int) (bw bh : BitVec 16) (din : List Byte) (o : Overlap) (row : Nat),
    o = overlapOf p px py bw bh → overlapEmpty o = false → din.length = (bw.toNat + 7) / 8 * bh.toNat →
    row < overlapHeight o →
    (overlapFits o px py bw bh = true →
      (rowBytes pad o px py bw bh din row).length = (bw.toNat + 7) / 8 ∧
      ∀ k < (bw.toNat + 7) / 8, (rowBytes pad o px py bw bh din row)[k]? = din[row * ((bw.toNat + 7) / 8) + k]?) ∧
    (overlapFits o px py bw bh = false →
      (rowBytes pad o px py bw bh din row).length = (overlapWidth o + 7) / 8 ∧
      ∀ k < (overlapWidth o + 7) / 8, ∀ j < 8, ∀ x y : Nat,
        (x : Int) = o.cx0 - px + (8 * k + j : Nat) → (y : Int) = o.cy0 - py + row →
        ((rowBytes pad o px py bw bh din row).getD k 0).getLsbD (7 - j) =
          if 8 * k + j < overlapWidth o
          then (din.getD ((bw.toNat + 7) / 8 * y + x / 8) 0).getLsbD (7 - x % 8) else pad)

/-! Unit ERS: the scheduler and the uploads. -/

/-- R251: `E.SETMODE` (`eSetmodeP`, `eSetmodeF`) stores the mode, resets the counter where it is Full, and sends the
whole `apply_config` of R214 even where the mode does not change; no refresh follows. The panel is never busy and no
write fails. -/
def Obligations.SetRefreshMode : Prop :=
  ∀ s : State, s.eReady = true →
    (s.quietFor (applyConfigRecords s.par s.panel.width s.panel.height .partialMode) → ∃ r o d,
      exec .eSetmodeP s =
        .next { s.ran (applyConfigRecords s.par s.panel.width s.panel.height .partialMode) with
          st := 0, r := r, dout := o, drawn := d, panel := { s.panel with refreshMode := .partialMode } }) ∧
    (s.quietFor (applyConfigRecords s.par s.panel.width s.panel.height .fullMode) → ∃ r o d,
      exec .eSetmodeF s =
        .next { s.ran (applyConfigRecords s.par s.panel.width s.panel.height .fullMode) with
          st := 0, r := r, dout := o, drawn := d
          panel := { s.panel with refreshMode := .fullMode, partialRefreshCount := 0 } })

/-- R254: `E.SETAUTO` stores the policy and nothing else, or raises `NotReady`. -/
def Obligations.SetAutoRefresh : Prop :=
  ∀ s : State,
    (s.eReady = true →
      (∃ r o d, exec .eSetautoNone s =
        .next { s with
          st := 0, r := r, dout := o, drawn := d, panel := { s.panel with autoRefreshMode := .noPolicy } }) ∧
      (∃ r o d, exec .eSetautoFull s =
        .next { s with
          st := 0, r := r, dout := o, drawn := d, panel := { s.panel with autoRefreshMode := .fullRefresh } }) ∧
      (∃ r o d, exec .eSetautoWhite s =
        .next { s with
          st := 0, r := r, dout := o, drawn := d, panel := { s.panel with autoRefreshMode := .clearToWhite } })) ∧
    (s.eReady = false → ∀ p, ∃ r o d,
      exec (setautoOf p) s = .next { s with st := 6, r := r, dout := o, drawn := d }) ∧
    (∀ a b din,
      decodeHost 0x2400 a b din = .ok .eSetautoNone ∧ decodeHost 0x2401 a b din = .ok .eSetautoFull ∧
      decodeHost 0x2402 a b din = .ok .eSetautoWhite ∧ decodeHost 0x2403 a b din = .error .reservedPolicy)

/-- R255: `E.SETMAX` stores the budget and nothing else, zero included, or raises `NotReady`. -/
def Obligations.SetMaxPartialRefreshes : Prop :=
  ∀ (s : State) (n : BitVec 32),
    (s.eReady = true → ∃ r o d,
      exec (.eSetmax n) s =
        .next { s with
          st := 0, r := r, dout := o, drawn := d, panel := { s.panel with maxPartialRefreshes := n } }) ∧
    (s.eReady = false → ∃ r o d, exec (.eSetmax n) s = .next { s with st := 6, r := r, dout := o, drawn := d }) ∧
    (∀ a b din, decodeHost 0x2500 a b din = .ok (.eSetmax (a.extractLsb' 0 32)))

/-- R257, R262, R260, R261: `E.RAWFB` sends the buffer whatever its length, inside what the table of R262 puts around
an upload by starting state, and moves nothing but the counter. The panel is never busy and no write fails; the premise
on `auto_refreshing` is R36. -/
def Obligations.RawFramebufferUpload : Prop :=
  ∀ (s : State) (din : List Byte) (es : List Record), s.eReady = true → s.panel.autoRefreshing = false →
    es = uploadPlan s.par s.panel (uploadFullRecords s.panel.width s.panel.height din) → s.quietFor es →
    ∃ r o d, exec (.eRawfb din) s =
      .next { s.ran es with st := 0, r := r, dout := o, drawn := d, panel := panelAfterUpload s.panel }

/-- R258, R224: `E.CLEAR` (`eClearW`, `eClearB`) uploads `ceil(W/8) * H` bytes 0xff or 0x00 as any other upload. The
panel is never busy and no write fails. -/
def Obligations.ClearUploadsAUniformFrame : Prop :=
  ∀ (s : State) (es : List Record), s.eReady = true → s.panel.autoRefreshing = false →
    (es = uploadPlan s.par s.panel (uploadFullRecords s.panel.width s.panel.height
        (List.replicate ((s.panel.width.toNat + 7) / 8 * s.panel.height.toNat) 0xff)) → s.quietFor es →
      ∃ r o d, exec .eClearW s =
        .next { s.ran es with st := 0, r := r, dout := o, drawn := d, panel := panelAfterUpload s.panel }) ∧
    (es = uploadPlan s.par s.panel (uploadFullRecords s.panel.width s.panel.height
        (List.replicate ((s.panel.width.toNat + 7) / 8 * s.panel.height.toNat) 0x00)) → s.quietFor es →
      ∃ r o d, exec .eClearB s =
        .next { s.ran es with st := 0, r := r, dout := o, drawn := d, panel := panelAfterUpload s.panel })

/-- R259, R228: `E.PUTBMP` of a well-formed bitmap whose rows all have an offset sends the region and the rows of the
overlap, or nothing for an empty one, inside what R262 puts around an upload. The panel is never busy and no write
fails. -/
def Obligations.PutBitmapUpload : Prop :=
  ∀ (s : State) (px py : BitVec 32) (bw bh : BitVec 16) (din : List Byte) (es : List Record) (o : Overlap),
    s.eReady = true → s.panel.autoRefreshing = false → din.length = (bw.toNat + 7) / 8 * bh.toNat →
    o = overlapOf s.panel px.toInt py.toInt bw bh →
    (overlapEmpty o = true ∨ ∀ row < overlapHeight o,
      0 ≤ offsetBaseW s.par s.panel.width - 2 - o.cx0 ∧ 0 ≤ offsetBaseH s.par s.panel.height - row - o.cy0 ∧
        offsetBaseH s.par s.panel.height - row - o.cy0 ≤ 65535) →
    es = uploadPlan s.par s.panel (uploadBitmapRecords s.par s.panel px.toInt py.toInt bw bh din) → s.quietFor es →
    ∃ r out d, exec (.ePutbmp px py bw bh din) s =
      .next { s.ran es with st := 0, r := r, dout := out, drawn := d, panel := panelAfterUpload s.panel }

/-- R225: a bitmap whose data is not `ceil(bw/8) * bh` bytes raises `OutOfRange` before anything is sent and before the
scheduler runs. -/
def Obligations.MalformedBitmapIsOutOfRange : Prop :=
  ∀ (s : State) (px py : BitVec 32) (bw bh : BitVec 16) (din : List Byte), s.eReady = true →
    din.length ≠ (bw.toNat + 7) / 8 * bh.toNat →
    ∃ r o d, exec (.ePutbmp px py bw bh din) s = .next { s with st := 3, r := r, dout := o, drawn := d }

/-- R222, D31: a well-formed bitmap with a row whose offset is below 0 or above 65535 is refused. -/
def Obligations.RowOffsetOutsideIsRefused : Prop :=
  ∀ (s : State) (px py : BitVec 32) (bw bh : BitVec 16) (din : List Byte) (o : Overlap) (row : Nat),
    s.eReady = true → din.length = (bw.toNat + 7) / 8 * bh.toNat →
    o = overlapOf s.panel px.toInt py.toInt bw bh → overlapEmpty o = false → row < overlapHeight o →
    (offsetBaseW s.par s.panel.width - 2 - o.cx0 < 0 ∨ offsetBaseH s.par s.panel.height - row - o.cy0 < 0 ∨
      65535 < offsetBaseH s.par s.panel.height - row - o.cy0) →
    exec (.ePutbmp px py bw bh din) s = .refused .rowOffsetOutOfRange

/-- R212, R341, D24: whatever the panel's busy line answers, as long as every wait is answered and no write fails, a
host operation of ERS completes and the panel is sent the same bytes at the same level of the data/command line. That an
unset timeout answered `expired` ends a wait is the model's choice (notes/assumptions/18.md). -/
def Obligations.BusyAnswersChangeNoByte : Prop :=
  ∀ (i : Instr) (s : State) (es : List Record), i.channel = .host → unitOf i = .ers → s.eReady = true →
    s.panel.autoRefreshing = false →
    (∀ w h, i = .eInit w h ∨ i = .eSetsize w h → w ≠ 0 ∧ h ≠ 0) →
    (∀ px py bw bh din, i = .ePutbmp px py bw bh din → bitmapOk bw bh din = true ∧
      regionOffsetsOk s.par s.panel (overlapOf s.panel px.toInt py.toInt bw bh) = true) →
    es = plannedRecords i s.par s.panel →
    s.answers.spiWrite.take (spiCalls es) = List.replicate (spiCalls es) true →
    busyCalls es ≤ s.answers.busyLevel.length → busyCalls es ≤ s.answers.busyWait.length →
    (∀ a ∈ s.answers.busyWait.take (busyCalls es), a ≠ .never) →
    ∃ t new, exec i s = .next t ∧ t.st = 0 ∧ t.trace = s.trace ++ new ∧
      ∀ dc, taggedBytes dc new = taggedBytes dc es

/-- R256: the counter stays within the larger of the budget and 1 through every instruction but `E.SETMAX`, and where
an upload increments it, it does not wrap. -/
def Obligations.CounterBound : Prop :=
  (∀ (i : Instr) (s t : State), (∀ n, i ≠ .eSetmax n) → s.eReady = true → s.panel.autoRefreshing = false →
    s.panel.partialRefreshCount.toNat ≤ max s.panel.maxPartialRefreshes.toNat 1 →
    exec i s = .next t → t.eReady = true →
    t.panel.partialRefreshCount.toNat ≤ max t.panel.maxPartialRefreshes.toNat 1) ∧
  (∀ (i : Instr) (s t : State), isUpload i = true → s.eReady = true → s.panel.autoRefreshing = false →
    exec i s = .next t → t.st = 0 → s.panel.refreshMode = .partialMode → s.panel.autoRefreshMode ≠ .noPolicy →
    s.panel.partialRefreshCount.toNat < s.panel.maxPartialRefreshes.toNat →
    t.panel.partialRefreshCount.toNat = s.panel.partialRefreshCount.toNat + 1)

/-! Rows at the grain of one primitive. -/

/-- R108, R211: each of the fourteen panel commands, where its writes succeed, sends its opcode with the line low and
its payload with the line high, and changes no state of the block. -/
def Obligations.PanelCommandsOnTheWire : Prop :=
  ∀ s : State,
    let sends := fun (i : Instr) (op : Byte) (payload : List Byte) =>
      s.quietFor (cmdRecords op payload) → ∃ r o d,
        exec i s = .next { s.ran (cmdRecords op payload) with st := 0, r := r, dout := o, drawn := d }
    sends .epdDriverOutputControl 0x01 (epdDocPayload s.par s.panel.width s.panel.height) ∧
    sends .epdDeepSleep 0x10 [0x01] ∧
    sends .epdDataInputMode 0x11 [epdDimArg s.par] ∧
    sends .epdSoftReset 0x12 [] ∧
    sends .epdTemperatureSource 0x18 [0x80] ∧
    sends .epdBeginUpdate 0x20 [] ∧
    sends .epdDisplayUpdateControl1 0x21 [0x00, 0x80] ∧
    sends (.epdDisplayUpdateControl2 .fullMode) 0x22 [0xf7] ∧
    sends (.epdDisplayUpdateControl2 .partialMode) 0x22 [0xff] ∧
    (∀ data, sends (.epdUploadImageData data) 0x24 data) ∧
    sends (.epdBorderWaveformControl .fullMode) 0x3c [0x05] ∧
    sends (.epdBorderWaveformControl .partialMode) 0x3c [0x80] ∧
    (∀ x0 x1 : BitVec 16, sends (.epdDrawRegionX x0 x1) 0x44 [x0.extractLsb' 3 8, x1.extractLsb' 3 8]) ∧
    (∀ y0 y1 : BitVec 16, sends (.epdDrawRegionY y0 y1) 0x45
      [y0.extractLsb' 0 8, y0.extractLsb' 8 8, y1.extractLsb' 0 8, y1.extractLsb' 8 8]) ∧
    (∀ ox : BitVec 16, sends (.epdDrawOffsetX ox) 0x4e [ox.extractLsb' 3 8]) ∧
    (∀ oy : BitVec 16, sends (.epdDrawOffsetY oy) 0x4f [oy.extractLsb' 0 8, oy.extractLsb' 8 8])

/-- R66: each of the eight register accesses is one call with the register's address, its length or payload, and no
other effect where it succeeds. That a read presents its bytes on `DOUT` is the model's choice
(notes/assumptions/6.md). -/
def Obligations.TouchRegisterAccesses : Prop :=
  ∀ s : State,
    let reads := fun (i : Instr) (address : List Byte) (n : Nat) =>
      ∀ bytes rest, s.answers.regRead = some bytes :: rest → n ≤ bytes.length → ∃ r d,
        exec i s =
          .next { s with
            st := 0, r := r, dout := bytes.take n, drawn := d
            trace := s.trace ++ [.i2cRead (touchDevAddr s.par) address n (some bytes)]
            answers := { s.answers with regRead := rest } }
    let writes := fun (i : Instr) (address payload : List Byte) =>
      ∀ rest, s.answers.regWrite = true :: rest → ∃ r o d,
        exec i s =
          .next { s with
            st := 0, r := r, dout := o, drawn := d
            trace := s.trace ++ [.i2cWrite (touchDevAddr s.par) address payload true]
            answers := { s.answers with regWrite := rest } }
    reads .touchIdRead [0x81, 0x40] 4 ∧
    reads .touchConfigRead [0x80, 0x51] 5 ∧
    reads .touchStatusRead [0x81, 0x4e] 1 ∧
    (∀ count : BitVec 4, reads (.touchFrameRead count) [0x81, 0x4e] (1 + 8 * count.toNat)) ∧
    reads .touchLockstatusRead [0x81, 0x4c] 1 ∧
    writes .touchStatusAck [0x81, 0x4e] [0x00] ∧
    writes .touchLockctlWrite [0x80, 0x40] [0x08, 0x00, 0xf8] ∧
    writes .touchLockstatusAck [0x81, 0x4c] [0x00]

/-! Reset and invariants. -/

/-- R330: block reset, where the spec gives a value. -/
def Obligations.BlockReset : Prop :=
  State.reset.buf.toBytes = [] ∧ State.reset.cur = 0 ∧ State.reset.bend = .little ∧ State.reset.touch.table = [] ∧
    State.reset.touch.locked = false ∧ State.reset.panel.autoRefreshing = false ∧ State.reset.tReady = false ∧
    State.reset.eReady = false ∧ State.reset.trace = []

/-- R23, R30, R36: the invariants hold at block reset. -/
def Obligations.ResetMeetsTheInvariants : Prop :=
  State.reset.bufferInv ∧ State.reset.touchInv ∧ State.reset.panelInv

/-- R23: every step keeps `0 <= cur <= len <= BUF_MAX` and the buffer's canonical form. -/
def Obligations.StepKeepsTheBufferInvariant : Prop :=
  ∀ s t : State, s.bufferInv → step s = .next t → t.bufferInv

/-- R30: every step keeps the Track Table's invariants: at most 5 entries, each under its own id as Touch or Drag,
none while locked. -/
def Obligations.StepKeepsTheTouchInvariant : Prop :=
  ∀ s t : State, s.touchInv → step s = .next t → t.touchInv

/-- R36: every step keeps: no remediation cycle between operations, counter 0 in Full mode; and the sizes of R37. -/
def Obligations.StepKeepsThePanelInvariant : Prop :=
  ∀ s t : State, s.panelInv → step s = .next t → t.panelInv
end

