-- ==== Sys2Proof/Laws/Memory.lean ====
section
/-! SUPPORT. The buffer: its canonical form, kept by every memory operation, and reading after writing. -/

namespace Sys2Proof.Machine

theorem cellsFrom_snd (bs : List Byte) : ∀ a, (cellsFrom a bs).map Prod.snd = bs := by
  induction bs with
  | nil => intro a; rfl
  | cons b bs ih => intro a; simp [cellsFrom, ih]

theorem cellsFrom_length (bs : List Byte) : ∀ a, (cellsFrom a bs).length = bs.length := by
  induction bs with
  | nil => intro a; rfl
  | cons b bs ih => intro a; simp [cellsFrom, ih]

theorem cellsFrom_fst (bs : List Byte) : ∀ a, (cellsFrom a bs).map Prod.fst = List.range' a bs.length := by
  induction bs with
  | nil => intro a; rfl
  | cons b bs ih => intro a; simp [cellsFrom, ih, List.range'_succ]

@[simp] theorem toBytes_ofBytes (bs : List Byte) : (Memory.ofBytes bs).toBytes = bs := cellsFrom_snd bs 0

@[simp] theorem size_ofBytes (bs : List Byte) : (Memory.ofBytes bs).size = bs.length := cellsFrom_length bs 0

@[simp] theorem toBytes_length (m : Memory) : m.toBytes.length = m.size := by simp [Memory.toBytes, Memory.size]

/-- Every buffer built from bytes is canonical. -/
@[simp] theorem ofBytes_wf (bs : List Byte) : (Memory.ofBytes bs).wf := by
  simp [Memory.wf, Memory.ofBytes, cellsFrom_fst, cellsFrom_length, List.range_eq_range']

/-- A write keeps the canonical form. -/
@[simp] theorem memWrite_wf (m : Memory) (a : Nat) (s : List Byte) : (m.memWrite a s).wf := ofBytes_wf _

/-- Growing keeps the canonical form. -/
@[simp] theorem append_wf (m : Memory) (s : List Byte) : (m.append s).wf := ofBytes_wf _

theorem cells_eq_cellsFrom (cs : List Host.Cell) :
    ∀ a, cs.map Prod.fst = List.range' a cs.length → cs = cellsFrom a (cs.map Prod.snd) := by
  induction cs with
  | nil => intro a _; rfl
  | cons c cs ih =>
    intro a h
    simp only [List.map_cons, List.length_cons, List.range'_succ, List.cons.injEq] at h
    obtain ⟨h1, h2⟩ := h
    simp only [List.map_cons, cellsFrom]
    rw [← ih (a + 1) h2, ← h1]

/-- A canonical buffer is the buffer of its bytes. -/
theorem ofBytes_toBytes (m : Memory) (h : m.wf) : Memory.ofBytes m.toBytes = m := by
  have h' := cells_eq_cellsFrom m.cells 0 (by rw [← List.range_eq_range']; exact h)
  simp only [Memory.ofBytes, Memory.toBytes]
  rw [← h']

theorem find_cellsFrom (bs : List Byte) :
    ∀ a i, (((cellsFrom a bs).find? fun c => c.1 == a + i).map Prod.snd) = bs[i]? := by
  induction bs with
  | nil => intro a i; rfl
  | cons b bs ih =>
    intro a i
    cases i with
    | zero => simp [cellsFrom]
    | succ i =>
      have h : (a == a + (i + 1)) = false := by simp
      have h2 := ih (a + 1) i
      rw [Nat.add_assoc, Nat.add_comm 1 i] at h2
      simp only [cellsFrom, List.find?_cons, h, List.getElem?_cons_succ]
      exact h2

/-- Reading one byte of a buffer built from bytes. -/
@[simp] theorem readByte_ofBytes (bs : List Byte) (a : Nat) : (Memory.ofBytes bs).readByte a = bs[a]? := by
  have h := find_cellsFrom bs 0 a
  rw [Nat.zero_add] at h
  exact h

/-- Reading one byte of a canonical buffer. -/
theorem readByte_of_wf (m : Memory) (h : m.wf) (a : Nat) : m.readByte a = m.toBytes[a]? := by
  conv_lhs => rw [← ofBytes_toBytes m h]
  exact readByte_ofBytes _ _

/-- The bytes after a write inside the buffer. -/
theorem toBytes_memWrite (m : Memory) (a : Nat) (s : List Byte) :
    (m.memWrite a s).toBytes = m.toBytes.take a ++ s ++ m.toBytes.drop (a + s.length) := by
  simp [Memory.memWrite]

/-- The size after a write inside the buffer. -/
theorem size_memWrite (m : Memory) (a : Nat) (s : List Byte) (h : a + s.length ≤ m.size) :
    (m.memWrite a s).size = m.size := by
  simp only [Memory.memWrite, size_ofBytes, List.length_append, List.length_take, List.length_drop, toBytes_length]
  omega

/-- Reading what was just written. -/
theorem memRead_memWrite (m : Memory) (a : Nat) (s : List Byte) (h : a ≤ m.size) :
    (m.memWrite a s).memRead a s.length = s := by
  have ha : (m.toBytes.take a).length = a := by simp [h]
  rw [Memory.memRead, toBytes_memWrite, List.append_assoc, List.drop_append_of_le_length (by omega)]
  rw [List.drop_of_length_le (by omega), List.nil_append, List.take_left']
  rfl

/-- A write leaves every other offset alone. -/
theorem readByte_memWrite_outside (m : Memory) (hw : m.wf) (a : Nat) (s : List Byte) (h : a + s.length ≤ m.size)
    (i : Nat) (hi : i < a ∨ a + s.length ≤ i) : (m.memWrite a s).readByte i = m.readByte i := by
  rw [readByte_of_wf _ (memWrite_wf m a s), readByte_of_wf m hw, toBytes_memWrite]
  have ha : (m.toBytes.take a).length = a := by simp; omega
  rcases hi with hi | hi
  · rw [List.append_assoc, List.getElem?_append_left (by omega), List.getElem?_take_of_lt hi]
  · rw [List.getElem?_append_right (by simp; omega), List.getElem?_drop]
    congr 1
    simp only [List.length_append, ha]
    omega

end Sys2Proof.Machine
end

