-- ==== Sys2Proof/Laws/State.lean ====
section
/-! SUPPORT. One lemma for each field under each named update of the state, so that no later proof unfolds an
update. -/

namespace Sys2Proof.Machine

/-! `emit`. -/

@[simp] theorem State.emit_buf (s : State) (e : Record) : (s.emit e).buf = s.buf := rfl
@[simp] theorem State.emit_cur (s : State) (e : Record) : (s.emit e).cur = s.cur := rfl
@[simp] theorem State.emit_bend (s : State) (e : Record) : (s.emit e).bend = s.bend := rfl
@[simp] theorem State.emit_touch (s : State) (e : Record) : (s.emit e).touch = s.touch := rfl
@[simp] theorem State.emit_tReady (s : State) (e : Record) : (s.emit e).tReady = s.tReady := rfl
@[simp] theorem State.emit_panel (s : State) (e : Record) : (s.emit e).panel = s.panel := rfl
@[simp] theorem State.emit_eReady (s : State) (e : Record) : (s.emit e).eReady = s.eReady := rfl
@[simp] theorem State.emit_st (s : State) (e : Record) : (s.emit e).st = s.st := rfl
@[simp] theorem State.emit_r (s : State) (e : Record) : (s.emit e).r = s.r := rfl
@[simp] theorem State.emit_dout (s : State) (e : Record) : (s.emit e).dout = s.dout := rfl
@[simp] theorem State.emit_requests (s : State) (e : Record) : (s.emit e).requests = s.requests := rfl
@[simp] theorem State.emit_trace (s : State) (e : Record) : (s.emit e).trace = s.trace ++ [e] := rfl
@[simp] theorem State.emit_answers (s : State) (e : Record) : (s.emit e).answers = s.answers := rfl
@[simp] theorem State.emit_drawn (s : State) (e : Record) : (s.emit e).drawn = s.drawn := rfl
@[simp] theorem State.emit_par (s : State) (e : Record) : (s.emit e).par = s.par := rfl

/-! `afterDraw`. -/

@[simp] theorem State.afterDraw_buf (s : State) (a : Answers) : (s.afterDraw a).buf = s.buf := rfl
@[simp] theorem State.afterDraw_cur (s : State) (a : Answers) : (s.afterDraw a).cur = s.cur := rfl
@[simp] theorem State.afterDraw_bend (s : State) (a : Answers) : (s.afterDraw a).bend = s.bend := rfl
@[simp] theorem State.afterDraw_touch (s : State) (a : Answers) : (s.afterDraw a).touch = s.touch := rfl
@[simp] theorem State.afterDraw_tReady (s : State) (a : Answers) : (s.afterDraw a).tReady = s.tReady := rfl
@[simp] theorem State.afterDraw_panel (s : State) (a : Answers) : (s.afterDraw a).panel = s.panel := rfl
@[simp] theorem State.afterDraw_eReady (s : State) (a : Answers) : (s.afterDraw a).eReady = s.eReady := rfl
@[simp] theorem State.afterDraw_st (s : State) (a : Answers) : (s.afterDraw a).st = s.st := rfl
@[simp] theorem State.afterDraw_r (s : State) (a : Answers) : (s.afterDraw a).r = s.r := rfl
@[simp] theorem State.afterDraw_dout (s : State) (a : Answers) : (s.afterDraw a).dout = s.dout := rfl
@[simp] theorem State.afterDraw_requests (s : State) (a : Answers) : (s.afterDraw a).requests = s.requests := rfl
@[simp] theorem State.afterDraw_trace (s : State) (a : Answers) : (s.afterDraw a).trace = s.trace := rfl
@[simp] theorem State.afterDraw_answers (s : State) (a : Answers) : (s.afterDraw a).answers = a := rfl
@[simp] theorem State.afterDraw_drawn (s : State) (a : Answers) : (s.afterDraw a).drawn = s.drawn + 1 := rfl
@[simp] theorem State.afterDraw_par (s : State) (a : Answers) : (s.afterDraw a).par = s.par := rfl

/-! `setTReady`. -/

@[simp] theorem State.setTReady_buf (s : State) (b : Bool) : (s.setTReady b).buf = s.buf := rfl
@[simp] theorem State.setTReady_cur (s : State) (b : Bool) : (s.setTReady b).cur = s.cur := rfl
@[simp] theorem State.setTReady_bend (s : State) (b : Bool) : (s.setTReady b).bend = s.bend := rfl
@[simp] theorem State.setTReady_touch (s : State) (b : Bool) : (s.setTReady b).touch = s.touch := rfl
@[simp] theorem State.setTReady_tReady (s : State) (b : Bool) : (s.setTReady b).tReady = b := rfl
@[simp] theorem State.setTReady_panel (s : State) (b : Bool) : (s.setTReady b).panel = s.panel := rfl
@[simp] theorem State.setTReady_eReady (s : State) (b : Bool) : (s.setTReady b).eReady = s.eReady := rfl
@[simp] theorem State.setTReady_st (s : State) (b : Bool) : (s.setTReady b).st = s.st := rfl
@[simp] theorem State.setTReady_r (s : State) (b : Bool) : (s.setTReady b).r = s.r := rfl
@[simp] theorem State.setTReady_dout (s : State) (b : Bool) : (s.setTReady b).dout = s.dout := rfl
@[simp] theorem State.setTReady_requests (s : State) (b : Bool) : (s.setTReady b).requests = s.requests := rfl
@[simp] theorem State.setTReady_trace (s : State) (b : Bool) : (s.setTReady b).trace = s.trace := rfl
@[simp] theorem State.setTReady_answers (s : State) (b : Bool) : (s.setTReady b).answers = s.answers := rfl
@[simp] theorem State.setTReady_drawn (s : State) (b : Bool) : (s.setTReady b).drawn = s.drawn := rfl
@[simp] theorem State.setTReady_par (s : State) (b : Bool) : (s.setTReady b).par = s.par := rfl

/-! `setEReady`. -/

@[simp] theorem State.setEReady_buf (s : State) (b : Bool) : (s.setEReady b).buf = s.buf := rfl
@[simp] theorem State.setEReady_cur (s : State) (b : Bool) : (s.setEReady b).cur = s.cur := rfl
@[simp] theorem State.setEReady_bend (s : State) (b : Bool) : (s.setEReady b).bend = s.bend := rfl
@[simp] theorem State.setEReady_touch (s : State) (b : Bool) : (s.setEReady b).touch = s.touch := rfl
@[simp] theorem State.setEReady_tReady (s : State) (b : Bool) : (s.setEReady b).tReady = s.tReady := rfl
@[simp] theorem State.setEReady_panel (s : State) (b : Bool) : (s.setEReady b).panel = s.panel := rfl
@[simp] theorem State.setEReady_eReady (s : State) (b : Bool) : (s.setEReady b).eReady = b := rfl
@[simp] theorem State.setEReady_st (s : State) (b : Bool) : (s.setEReady b).st = s.st := rfl
@[simp] theorem State.setEReady_r (s : State) (b : Bool) : (s.setEReady b).r = s.r := rfl
@[simp] theorem State.setEReady_dout (s : State) (b : Bool) : (s.setEReady b).dout = s.dout := rfl
@[simp] theorem State.setEReady_requests (s : State) (b : Bool) : (s.setEReady b).requests = s.requests := rfl
@[simp] theorem State.setEReady_trace (s : State) (b : Bool) : (s.setEReady b).trace = s.trace := rfl
@[simp] theorem State.setEReady_answers (s : State) (b : Bool) : (s.setEReady b).answers = s.answers := rfl
@[simp] theorem State.setEReady_drawn (s : State) (b : Bool) : (s.setEReady b).drawn = s.drawn := rfl
@[simp] theorem State.setEReady_par (s : State) (b : Bool) : (s.setEReady b).par = s.par := rfl

/-! `setLocked`. -/

@[simp] theorem State.setLocked_buf (s : State) (b : Bool) : (s.setLocked b).buf = s.buf := rfl
@[simp] theorem State.setLocked_cur (s : State) (b : Bool) : (s.setLocked b).cur = s.cur := rfl
@[simp] theorem State.setLocked_bend (s : State) (b : Bool) : (s.setLocked b).bend = s.bend := rfl
@[simp] theorem State.setLocked_touch (s : State) (b : Bool) : (s.setLocked b).touch = { s.touch with locked := b } := rfl
@[simp] theorem State.setLocked_tReady (s : State) (b : Bool) : (s.setLocked b).tReady = s.tReady := rfl
@[simp] theorem State.setLocked_panel (s : State) (b : Bool) : (s.setLocked b).panel = s.panel := rfl
@[simp] theorem State.setLocked_eReady (s : State) (b : Bool) : (s.setLocked b).eReady = s.eReady := rfl
@[simp] theorem State.setLocked_st (s : State) (b : Bool) : (s.setLocked b).st = s.st := rfl
@[simp] theorem State.setLocked_r (s : State) (b : Bool) : (s.setLocked b).r = s.r := rfl
@[simp] theorem State.setLocked_dout (s : State) (b : Bool) : (s.setLocked b).dout = s.dout := rfl
@[simp] theorem State.setLocked_requests (s : State) (b : Bool) : (s.setLocked b).requests = s.requests := rfl
@[simp] theorem State.setLocked_trace (s : State) (b : Bool) : (s.setLocked b).trace = s.trace := rfl
@[simp] theorem State.setLocked_answers (s : State) (b : Bool) : (s.setLocked b).answers = s.answers := rfl
@[simp] theorem State.setLocked_drawn (s : State) (b : Bool) : (s.setLocked b).drawn = s.drawn := rfl
@[simp] theorem State.setLocked_par (s : State) (b : Bool) : (s.setLocked b).par = s.par := rfl

/-! `setTable`. -/

@[simp] theorem State.setTable_buf (s : State) (t : List (BitVec 8 × TouchEvent)) : (s.setTable t).buf = s.buf := rfl
@[simp] theorem State.setTable_cur (s : State) (t : List (BitVec 8 × TouchEvent)) : (s.setTable t).cur = s.cur := rfl
@[simp] theorem State.setTable_bend (s : State) (t : List (BitVec 8 × TouchEvent)) : (s.setTable t).bend = s.bend := rfl
@[simp] theorem State.setTable_touch (s : State) (t : List (BitVec 8 × TouchEvent)) : (s.setTable t).touch = { s.touch with table := t } := rfl
@[simp] theorem State.setTable_tReady (s : State) (t : List (BitVec 8 × TouchEvent)) : (s.setTable t).tReady = s.tReady := rfl
@[simp] theorem State.setTable_panel (s : State) (t : List (BitVec 8 × TouchEvent)) : (s.setTable t).panel = s.panel := rfl
@[simp] theorem State.setTable_eReady (s : State) (t : List (BitVec 8 × TouchEvent)) : (s.setTable t).eReady = s.eReady := rfl
@[simp] theorem State.setTable_st (s : State) (t : List (BitVec 8 × TouchEvent)) : (s.setTable t).st = s.st := rfl
@[simp] theorem State.setTable_r (s : State) (t : List (BitVec 8 × TouchEvent)) : (s.setTable t).r = s.r := rfl
@[simp] theorem State.setTable_dout (s : State) (t : List (BitVec 8 × TouchEvent)) : (s.setTable t).dout = s.dout := rfl
@[simp] theorem State.setTable_requests (s : State) (t : List (BitVec 8 × TouchEvent)) : (s.setTable t).requests = s.requests := rfl
@[simp] theorem State.setTable_trace (s : State) (t : List (BitVec 8 × TouchEvent)) : (s.setTable t).trace = s.trace := rfl
@[simp] theorem State.setTable_answers (s : State) (t : List (BitVec 8 × TouchEvent)) : (s.setTable t).answers = s.answers := rfl
@[simp] theorem State.setTable_drawn (s : State) (t : List (BitVec 8 × TouchEvent)) : (s.setTable t).drawn = s.drawn := rfl
@[simp] theorem State.setTable_par (s : State) (t : List (BitVec 8 × TouchEvent)) : (s.setTable t).par = s.par := rfl

/-! `setCfg`. -/

@[simp] theorem State.setCfg_buf (s : State) (c : TouchConfig) : (s.setCfg c).buf = s.buf := rfl
@[simp] theorem State.setCfg_cur (s : State) (c : TouchConfig) : (s.setCfg c).cur = s.cur := rfl
@[simp] theorem State.setCfg_bend (s : State) (c : TouchConfig) : (s.setCfg c).bend = s.bend := rfl
@[simp] theorem State.setCfg_touch (s : State) (c : TouchConfig) : (s.setCfg c).touch = { s.touch with cfg := c } := rfl
@[simp] theorem State.setCfg_tReady (s : State) (c : TouchConfig) : (s.setCfg c).tReady = s.tReady := rfl
@[simp] theorem State.setCfg_panel (s : State) (c : TouchConfig) : (s.setCfg c).panel = s.panel := rfl
@[simp] theorem State.setCfg_eReady (s : State) (c : TouchConfig) : (s.setCfg c).eReady = s.eReady := rfl
@[simp] theorem State.setCfg_st (s : State) (c : TouchConfig) : (s.setCfg c).st = s.st := rfl
@[simp] theorem State.setCfg_r (s : State) (c : TouchConfig) : (s.setCfg c).r = s.r := rfl
@[simp] theorem State.setCfg_dout (s : State) (c : TouchConfig) : (s.setCfg c).dout = s.dout := rfl
@[simp] theorem State.setCfg_requests (s : State) (c : TouchConfig) : (s.setCfg c).requests = s.requests := rfl
@[simp] theorem State.setCfg_trace (s : State) (c : TouchConfig) : (s.setCfg c).trace = s.trace := rfl
@[simp] theorem State.setCfg_answers (s : State) (c : TouchConfig) : (s.setCfg c).answers = s.answers := rfl
@[simp] theorem State.setCfg_drawn (s : State) (c : TouchConfig) : (s.setCfg c).drawn = s.drawn := rfl
@[simp] theorem State.setCfg_par (s : State) (c : TouchConfig) : (s.setCfg c).par = s.par := rfl

/-! `setAutoRefreshing`. -/

@[simp] theorem State.setAutoRefreshing_buf (s : State) (b : Bool) : (s.setAutoRefreshing b).buf = s.buf := rfl
@[simp] theorem State.setAutoRefreshing_cur (s : State) (b : Bool) : (s.setAutoRefreshing b).cur = s.cur := rfl
@[simp] theorem State.setAutoRefreshing_bend (s : State) (b : Bool) : (s.setAutoRefreshing b).bend = s.bend := rfl
@[simp] theorem State.setAutoRefreshing_touch (s : State) (b : Bool) : (s.setAutoRefreshing b).touch = s.touch := rfl
@[simp] theorem State.setAutoRefreshing_tReady (s : State) (b : Bool) : (s.setAutoRefreshing b).tReady = s.tReady := rfl
@[simp] theorem State.setAutoRefreshing_panel (s : State) (b : Bool) : (s.setAutoRefreshing b).panel = { s.panel with autoRefreshing := b } := rfl
@[simp] theorem State.setAutoRefreshing_eReady (s : State) (b : Bool) : (s.setAutoRefreshing b).eReady = s.eReady := rfl
@[simp] theorem State.setAutoRefreshing_st (s : State) (b : Bool) : (s.setAutoRefreshing b).st = s.st := rfl
@[simp] theorem State.setAutoRefreshing_r (s : State) (b : Bool) : (s.setAutoRefreshing b).r = s.r := rfl
@[simp] theorem State.setAutoRefreshing_dout (s : State) (b : Bool) : (s.setAutoRefreshing b).dout = s.dout := rfl
@[simp] theorem State.setAutoRefreshing_requests (s : State) (b : Bool) : (s.setAutoRefreshing b).requests = s.requests := rfl
@[simp] theorem State.setAutoRefreshing_trace (s : State) (b : Bool) : (s.setAutoRefreshing b).trace = s.trace := rfl
@[simp] theorem State.setAutoRefreshing_answers (s : State) (b : Bool) : (s.setAutoRefreshing b).answers = s.answers := rfl
@[simp] theorem State.setAutoRefreshing_drawn (s : State) (b : Bool) : (s.setAutoRefreshing b).drawn = s.drawn := rfl
@[simp] theorem State.setAutoRefreshing_par (s : State) (b : Bool) : (s.setAutoRefreshing b).par = s.par := rfl

/-! `setRefreshMode`. -/

@[simp] theorem State.setRefreshMode_buf (s : State) (m : RefreshMode) : (s.setRefreshMode m).buf = s.buf := rfl
@[simp] theorem State.setRefreshMode_cur (s : State) (m : RefreshMode) : (s.setRefreshMode m).cur = s.cur := rfl
@[simp] theorem State.setRefreshMode_bend (s : State) (m : RefreshMode) : (s.setRefreshMode m).bend = s.bend := rfl
@[simp] theorem State.setRefreshMode_touch (s : State) (m : RefreshMode) : (s.setRefreshMode m).touch = s.touch := rfl
@[simp] theorem State.setRefreshMode_tReady (s : State) (m : RefreshMode) : (s.setRefreshMode m).tReady = s.tReady := rfl
@[simp] theorem State.setRefreshMode_panel (s : State) (m : RefreshMode) : (s.setRefreshMode m).panel = { s.panel with refreshMode := m } := rfl
@[simp] theorem State.setRefreshMode_eReady (s : State) (m : RefreshMode) : (s.setRefreshMode m).eReady = s.eReady := rfl
@[simp] theorem State.setRefreshMode_st (s : State) (m : RefreshMode) : (s.setRefreshMode m).st = s.st := rfl
@[simp] theorem State.setRefreshMode_r (s : State) (m : RefreshMode) : (s.setRefreshMode m).r = s.r := rfl
@[simp] theorem State.setRefreshMode_dout (s : State) (m : RefreshMode) : (s.setRefreshMode m).dout = s.dout := rfl
@[simp] theorem State.setRefreshMode_requests (s : State) (m : RefreshMode) : (s.setRefreshMode m).requests = s.requests := rfl
@[simp] theorem State.setRefreshMode_trace (s : State) (m : RefreshMode) : (s.setRefreshMode m).trace = s.trace := rfl
@[simp] theorem State.setRefreshMode_answers (s : State) (m : RefreshMode) : (s.setRefreshMode m).answers = s.answers := rfl
@[simp] theorem State.setRefreshMode_drawn (s : State) (m : RefreshMode) : (s.setRefreshMode m).drawn = s.drawn := rfl
@[simp] theorem State.setRefreshMode_par (s : State) (m : RefreshMode) : (s.setRefreshMode m).par = s.par := rfl

/-! `setAutoRefreshMode`. -/

@[simp] theorem State.setAutoRefreshMode_buf (s : State) (p : RefreshPolicy) : (s.setAutoRefreshMode p).buf = s.buf := rfl
@[simp] theorem State.setAutoRefreshMode_cur (s : State) (p : RefreshPolicy) : (s.setAutoRefreshMode p).cur = s.cur := rfl
@[simp] theorem State.setAutoRefreshMode_bend (s : State) (p : RefreshPolicy) : (s.setAutoRefreshMode p).bend = s.bend := rfl
@[simp] theorem State.setAutoRefreshMode_touch (s : State) (p : RefreshPolicy) : (s.setAutoRefreshMode p).touch = s.touch := rfl
@[simp] theorem State.setAutoRefreshMode_tReady (s : State) (p : RefreshPolicy) : (s.setAutoRefreshMode p).tReady = s.tReady := rfl
@[simp] theorem State.setAutoRefreshMode_panel (s : State) (p : RefreshPolicy) : (s.setAutoRefreshMode p).panel = { s.panel with autoRefreshMode := p } := rfl
@[simp] theorem State.setAutoRefreshMode_eReady (s : State) (p : RefreshPolicy) : (s.setAutoRefreshMode p).eReady = s.eReady := rfl
@[simp] theorem State.setAutoRefreshMode_st (s : State) (p : RefreshPolicy) : (s.setAutoRefreshMode p).st = s.st := rfl
@[simp] theorem State.setAutoRefreshMode_r (s : State) (p : RefreshPolicy) : (s.setAutoRefreshMode p).r = s.r := rfl
@[simp] theorem State.setAutoRefreshMode_dout (s : State) (p : RefreshPolicy) : (s.setAutoRefreshMode p).dout = s.dout := rfl
@[simp] theorem State.setAutoRefreshMode_requests (s : State) (p : RefreshPolicy) : (s.setAutoRefreshMode p).requests = s.requests := rfl
@[simp] theorem State.setAutoRefreshMode_trace (s : State) (p : RefreshPolicy) : (s.setAutoRefreshMode p).trace = s.trace := rfl
@[simp] theorem State.setAutoRefreshMode_answers (s : State) (p : RefreshPolicy) : (s.setAutoRefreshMode p).answers = s.answers := rfl
@[simp] theorem State.setAutoRefreshMode_drawn (s : State) (p : RefreshPolicy) : (s.setAutoRefreshMode p).drawn = s.drawn := rfl
@[simp] theorem State.setAutoRefreshMode_par (s : State) (p : RefreshPolicy) : (s.setAutoRefreshMode p).par = s.par := rfl

/-! `setPartialCount`. -/

@[simp] theorem State.setPartialCount_buf (s : State) (n : BitVec 32) : (s.setPartialCount n).buf = s.buf := rfl
@[simp] theorem State.setPartialCount_cur (s : State) (n : BitVec 32) : (s.setPartialCount n).cur = s.cur := rfl
@[simp] theorem State.setPartialCount_bend (s : State) (n : BitVec 32) : (s.setPartialCount n).bend = s.bend := rfl
@[simp] theorem State.setPartialCount_touch (s : State) (n : BitVec 32) : (s.setPartialCount n).touch = s.touch := rfl
@[simp] theorem State.setPartialCount_tReady (s : State) (n : BitVec 32) : (s.setPartialCount n).tReady = s.tReady := rfl
@[simp] theorem State.setPartialCount_panel (s : State) (n : BitVec 32) : (s.setPartialCount n).panel = { s.panel with partialRefreshCount := n } := rfl
@[simp] theorem State.setPartialCount_eReady (s : State) (n : BitVec 32) : (s.setPartialCount n).eReady = s.eReady := rfl
@[simp] theorem State.setPartialCount_st (s : State) (n : BitVec 32) : (s.setPartialCount n).st = s.st := rfl
@[simp] theorem State.setPartialCount_r (s : State) (n : BitVec 32) : (s.setPartialCount n).r = s.r := rfl
@[simp] theorem State.setPartialCount_dout (s : State) (n : BitVec 32) : (s.setPartialCount n).dout = s.dout := rfl
@[simp] theorem State.setPartialCount_requests (s : State) (n : BitVec 32) : (s.setPartialCount n).requests = s.requests := rfl
@[simp] theorem State.setPartialCount_trace (s : State) (n : BitVec 32) : (s.setPartialCount n).trace = s.trace := rfl
@[simp] theorem State.setPartialCount_answers (s : State) (n : BitVec 32) : (s.setPartialCount n).answers = s.answers := rfl
@[simp] theorem State.setPartialCount_drawn (s : State) (n : BitVec 32) : (s.setPartialCount n).drawn = s.drawn := rfl
@[simp] theorem State.setPartialCount_par (s : State) (n : BitVec 32) : (s.setPartialCount n).par = s.par := rfl

/-! `setMaxPartial`. -/

@[simp] theorem State.setMaxPartial_buf (s : State) (n : BitVec 32) : (s.setMaxPartial n).buf = s.buf := rfl
@[simp] theorem State.setMaxPartial_cur (s : State) (n : BitVec 32) : (s.setMaxPartial n).cur = s.cur := rfl
@[simp] theorem State.setMaxPartial_bend (s : State) (n : BitVec 32) : (s.setMaxPartial n).bend = s.bend := rfl
@[simp] theorem State.setMaxPartial_touch (s : State) (n : BitVec 32) : (s.setMaxPartial n).touch = s.touch := rfl
@[simp] theorem State.setMaxPartial_tReady (s : State) (n : BitVec 32) : (s.setMaxPartial n).tReady = s.tReady := rfl
@[simp] theorem State.setMaxPartial_panel (s : State) (n : BitVec 32) : (s.setMaxPartial n).panel = { s.panel with maxPartialRefreshes := n } := rfl
@[simp] theorem State.setMaxPartial_eReady (s : State) (n : BitVec 32) : (s.setMaxPartial n).eReady = s.eReady := rfl
@[simp] theorem State.setMaxPartial_st (s : State) (n : BitVec 32) : (s.setMaxPartial n).st = s.st := rfl
@[simp] theorem State.setMaxPartial_r (s : State) (n : BitVec 32) : (s.setMaxPartial n).r = s.r := rfl
@[simp] theorem State.setMaxPartial_dout (s : State) (n : BitVec 32) : (s.setMaxPartial n).dout = s.dout := rfl
@[simp] theorem State.setMaxPartial_requests (s : State) (n : BitVec 32) : (s.setMaxPartial n).requests = s.requests := rfl
@[simp] theorem State.setMaxPartial_trace (s : State) (n : BitVec 32) : (s.setMaxPartial n).trace = s.trace := rfl
@[simp] theorem State.setMaxPartial_answers (s : State) (n : BitVec 32) : (s.setMaxPartial n).answers = s.answers := rfl
@[simp] theorem State.setMaxPartial_drawn (s : State) (n : BitVec 32) : (s.setMaxPartial n).drawn = s.drawn := rfl
@[simp] theorem State.setMaxPartial_par (s : State) (n : BitVec 32) : (s.setMaxPartial n).par = s.par := rfl

/-! `setSize`. -/

@[simp] theorem State.setSize_buf (s : State) (w h : BitVec 16) : (s.setSize w h).buf = s.buf := rfl
@[simp] theorem State.setSize_cur (s : State) (w h : BitVec 16) : (s.setSize w h).cur = s.cur := rfl
@[simp] theorem State.setSize_bend (s : State) (w h : BitVec 16) : (s.setSize w h).bend = s.bend := rfl
@[simp] theorem State.setSize_touch (s : State) (w h : BitVec 16) : (s.setSize w h).touch = s.touch := rfl
@[simp] theorem State.setSize_tReady (s : State) (w h : BitVec 16) : (s.setSize w h).tReady = s.tReady := rfl
@[simp] theorem State.setSize_panel (s : State) (w h : BitVec 16) : (s.setSize w h).panel = { s.panel with width := w, height := h } := rfl
@[simp] theorem State.setSize_eReady (s : State) (w h : BitVec 16) : (s.setSize w h).eReady = s.eReady := rfl
@[simp] theorem State.setSize_st (s : State) (w h : BitVec 16) : (s.setSize w h).st = s.st := rfl
@[simp] theorem State.setSize_r (s : State) (w h : BitVec 16) : (s.setSize w h).r = s.r := rfl
@[simp] theorem State.setSize_dout (s : State) (w h : BitVec 16) : (s.setSize w h).dout = s.dout := rfl
@[simp] theorem State.setSize_requests (s : State) (w h : BitVec 16) : (s.setSize w h).requests = s.requests := rfl
@[simp] theorem State.setSize_trace (s : State) (w h : BitVec 16) : (s.setSize w h).trace = s.trace := rfl
@[simp] theorem State.setSize_answers (s : State) (w h : BitVec 16) : (s.setSize w h).answers = s.answers := rfl
@[simp] theorem State.setSize_drawn (s : State) (w h : BitVec 16) : (s.setSize w h).drawn = s.drawn := rfl
@[simp] theorem State.setSize_par (s : State) (w h : BitVec 16) : (s.setSize w h).par = s.par := rfl

/-! `setPorts`. -/

@[simp] theorem State.setPorts_buf (s : State) (c : BitVec 8) (res : Results) : (s.setPorts c res).buf = s.buf := rfl
@[simp] theorem State.setPorts_cur (s : State) (c : BitVec 8) (res : Results) : (s.setPorts c res).cur = s.cur := rfl
@[simp] theorem State.setPorts_bend (s : State) (c : BitVec 8) (res : Results) : (s.setPorts c res).bend = s.bend := rfl
@[simp] theorem State.setPorts_touch (s : State) (c : BitVec 8) (res : Results) : (s.setPorts c res).touch = s.touch := rfl
@[simp] theorem State.setPorts_tReady (s : State) (c : BitVec 8) (res : Results) : (s.setPorts c res).tReady = s.tReady := rfl
@[simp] theorem State.setPorts_panel (s : State) (c : BitVec 8) (res : Results) : (s.setPorts c res).panel = s.panel := rfl
@[simp] theorem State.setPorts_eReady (s : State) (c : BitVec 8) (res : Results) : (s.setPorts c res).eReady = s.eReady := rfl
@[simp] theorem State.setPorts_st (s : State) (c : BitVec 8) (res : Results) : (s.setPorts c res).st = c := rfl
@[simp] theorem State.setPorts_r (s : State) (c : BitVec 8) (res : Results) : (s.setPorts c res).r = res.r.getD (Config.freeResult s.drawn) := rfl
@[simp] theorem State.setPorts_dout (s : State) (c : BitVec 8) (res : Results) : (s.setPorts c res).dout = res.dout.getD (Config.freeDout s.drawn) := rfl
@[simp] theorem State.setPorts_requests (s : State) (c : BitVec 8) (res : Results) : (s.setPorts c res).requests = s.requests := rfl
@[simp] theorem State.setPorts_trace (s : State) (c : BitVec 8) (res : Results) : (s.setPorts c res).trace = s.trace := rfl
@[simp] theorem State.setPorts_answers (s : State) (c : BitVec 8) (res : Results) : (s.setPorts c res).answers = s.answers := rfl
@[simp] theorem State.setPorts_drawn (s : State) (c : BitVec 8) (res : Results) : (s.setPorts c res).drawn = s.drawn + 1 := rfl
@[simp] theorem State.setPorts_par (s : State) (c : BitVec 8) (res : Results) : (s.setPorts c res).par = s.par := rfl

/-! `present`. -/

@[simp] theorem State.present_buf (s : State) (res : Results) : (s.present res).buf = s.buf := rfl
@[simp] theorem State.present_cur (s : State) (res : Results) : (s.present res).cur = s.cur := rfl
@[simp] theorem State.present_bend (s : State) (res : Results) : (s.present res).bend = s.bend := rfl
@[simp] theorem State.present_touch (s : State) (res : Results) : (s.present res).touch = s.touch := rfl
@[simp] theorem State.present_tReady (s : State) (res : Results) : (s.present res).tReady = s.tReady := rfl
@[simp] theorem State.present_panel (s : State) (res : Results) : (s.present res).panel = s.panel := rfl
@[simp] theorem State.present_eReady (s : State) (res : Results) : (s.present res).eReady = s.eReady := rfl
@[simp] theorem State.present_st (s : State) (res : Results) : (s.present res).st = 0 := rfl
@[simp] theorem State.present_r (s : State) (res : Results) : (s.present res).r = res.r.getD (Config.freeResult s.drawn) := rfl
@[simp] theorem State.present_dout (s : State) (res : Results) : (s.present res).dout = res.dout.getD (Config.freeDout s.drawn) := rfl
@[simp] theorem State.present_requests (s : State) (res : Results) : (s.present res).requests = s.requests := rfl
@[simp] theorem State.present_trace (s : State) (res : Results) : (s.present res).trace = s.trace := rfl
@[simp] theorem State.present_answers (s : State) (res : Results) : (s.present res).answers = s.answers := rfl
@[simp] theorem State.present_drawn (s : State) (res : Results) : (s.present res).drawn = s.drawn + 1 := rfl
@[simp] theorem State.present_par (s : State) (res : Results) : (s.present res).par = s.par := rfl

/-! `presentRequest`. -/

@[simp] theorem State.presentRequest_buf (s : State) (q : Request) : (s.presentRequest q).buf = s.buf := rfl
@[simp] theorem State.presentRequest_cur (s : State) (q : Request) : (s.presentRequest q).cur = s.cur := rfl
@[simp] theorem State.presentRequest_bend (s : State) (q : Request) : (s.presentRequest q).bend = s.bend := rfl
@[simp] theorem State.presentRequest_touch (s : State) (q : Request) : (s.presentRequest q).touch = s.touch := rfl
@[simp] theorem State.presentRequest_tReady (s : State) (q : Request) : (s.presentRequest q).tReady = s.tReady := rfl
@[simp] theorem State.presentRequest_panel (s : State) (q : Request) : (s.presentRequest q).panel = s.panel := rfl
@[simp] theorem State.presentRequest_eReady (s : State) (q : Request) : (s.presentRequest q).eReady = s.eReady := rfl
@[simp] theorem State.presentRequest_st (s : State) (q : Request) : (s.presentRequest q).st = s.st := rfl
@[simp] theorem State.presentRequest_r (s : State) (q : Request) : (s.presentRequest q).r = s.r := rfl
@[simp] theorem State.presentRequest_dout (s : State) (q : Request) : (s.presentRequest q).dout = s.dout := rfl
@[simp] theorem State.presentRequest_requests (s : State) (q : Request) : (s.presentRequest q).requests = q :: s.requests := rfl
@[simp] theorem State.presentRequest_trace (s : State) (q : Request) : (s.presentRequest q).trace = s.trace := rfl
@[simp] theorem State.presentRequest_answers (s : State) (q : Request) : (s.presentRequest q).answers = s.answers := rfl
@[simp] theorem State.presentRequest_drawn (s : State) (q : Request) : (s.presentRequest q).drawn = s.drawn := rfl
@[simp] theorem State.presentRequest_par (s : State) (q : Request) : (s.presentRequest q).par = s.par := rfl

/-! `raise`: the ports, and what no error touches (R290, R296). -/

@[simp] theorem State.raise_st (s : State) (e : Error) : (s.raise e).st = errorCode e := rfl

@[simp] theorem State.raise_buf (s : State) (e : Error) : (s.raise e).buf = s.buf := by
  cases e <;> first | rfl | (rename_i u; cases u <;> rfl)

@[simp] theorem State.raise_cur (s : State) (e : Error) : (s.raise e).cur = s.cur := by
  cases e <;> first | rfl | (rename_i u; cases u <;> rfl)

@[simp] theorem State.raise_bend (s : State) (e : Error) : (s.raise e).bend = s.bend := by
  cases e <;> first | rfl | (rename_i u; cases u <;> rfl)

@[simp] theorem State.raise_requests (s : State) (e : Error) : (s.raise e).requests = s.requests := by
  cases e <;> first | rfl | (rename_i u; cases u <;> rfl)

@[simp] theorem State.raise_trace (s : State) (e : Error) : (s.raise e).trace = s.trace := by
  cases e <;> first | rfl | (rename_i u; cases u <;> rfl)

@[simp] theorem State.raise_answers (s : State) (e : Error) : (s.raise e).answers = s.answers := by
  cases e <;> first | rfl | (rename_i u; cases u <;> rfl)

@[simp] theorem State.raise_par (s : State) (e : Error) : (s.raise e).par = s.par := by
  cases e <;> first | rfl | (rename_i u; cases u <;> rfl)

/-- The errors that end an operation without touching a unit's state (R294, R301). -/
def Error.isMild : Error → Bool
  | .outOfRange | .capacityExceeded | .illegalOp | .notReady => true
  | .transportError _ | .protocolMismatch => false

/-- A mild error changes the result ports and nothing else. -/
theorem State.raise_of_mild (s : State) (e : Error) (h : e.isMild = true) :
    s.raise e = s.setPorts (errorCode e) noResults := by
  cases e <;> first | rfl | simp [Error.isMild] at h

/-- A `TransportError` in TES leaves ERS alone (R300: "The other units are not affected"). -/
@[simp] theorem State.raise_touch_panel (s : State) : (s.raise (.transportError .touchUnit)).panel = s.panel := rfl

@[simp] theorem State.raise_touch_eReady (s : State) :
    (s.raise (.transportError .touchUnit)).eReady = s.eReady := rfl

@[simp] theorem State.raise_touch_tReady (s : State) :
    (s.raise (.transportError .touchUnit)).tReady = false := rfl

/-- A `TransportError` in ERS leaves TES alone (R300). -/
@[simp] theorem State.raise_panel_touch (s : State) : (s.raise (.transportError .panelUnit)).touch = s.touch := rfl

@[simp] theorem State.raise_panel_tReady (s : State) :
    (s.raise (.transportError .panelUnit)).tReady = s.tReady := rfl

@[simp] theorem State.raise_panel_eReady (s : State) :
    (s.raise (.transportError .panelUnit)).eReady = false := rfl

end Sys2Proof.Machine
end

