-- ==== Sys2Proof/Laws/Ops.lean ====
section
/-! SUPPORT. What each shared operation can do, said once: sequencing, how an operation ends, and the calls of the
environment. -/

namespace Sys2Proof.Machine

/-! Sequencing. -/

@[simp] theorem bind_ok {α β : Type} (a : α) (s : State) (k : α → State → Res β) : (Res.ok a s).bind k = k a s := rfl

@[simp] theorem bind_raised {α β : Type} (e : Error) (s : State) (k : α → State → Res β) :
    (Res.raised e s).bind k = .raised e s := rfl

@[simp] theorem bind_stuck {α β : Type} (f : Fault) (k : α → State → Res β) : (Res.stuck f).bind k = .stuck f := rfl

@[simp] theorem bind_refused {α β : Type} (r : Refusal) (k : α → State → Res β) :
    (Res.refused r).bind k = .refused r := rfl

theorem bind_assoc {α β γ : Type} (x : Res α) (k : α → State → Res β) (l : β → State → Res γ) :
    (x.bind k).bind l = x.bind fun a s => (k a s).bind l := by
  cases x <;> rfl

/-- A sequence goes on only through both pieces. -/
theorem bind_eq_ok {α β : Type} {x : Res α} {k : α → State → Res β} {b : β} {t : State} :
    x.bind k = .ok b t ↔ ∃ a s, x = .ok a s ∧ k a s = .ok b t := by
  cases x <;> simp

/-- A sequence raises in the first piece or in the second. -/
theorem bind_eq_raised {α β : Type} {x : Res α} {k : α → State → Res β} {e : Error} {t : State} :
    x.bind k = .raised e t ↔ x = .raised e t ∨ ∃ a s, x = .ok a s ∧ k a s = .raised e t := by
  cases x <;> simp

@[simp] theorem inOrder_nil (s : State) : inOrder [] s = .ok () s := rfl

@[simp] theorem inOrder_cons (p : State → Res Unit) (l : List (State → Res Unit)) (s : State) :
    inOrder (p :: l) s = (p s).bind fun _ s' => inOrder l s' := rfl

theorem inOrder_append (l1 l2 : List (State → Res Unit)) :
    ∀ s, inOrder (l1 ++ l2) s = (inOrder l1 s).bind fun _ s' => inOrder l2 s' := by
  induction l1 with
  | nil => intro s; rfl
  | cons p l1 ih => intro s; simp only [List.cons_append, inOrder_cons, bind_assoc, ih]

/-! Where an operation ends: `P` at the states it goes on from, `Q` at the states it raises in. -/

/-- Every state a piece ends in: `P` where it goes on, `Q` where it raises. -/
def Res.ends {α : Type} (x : Res α) (P : State → Prop) (Q : Error → State → Prop) : Prop :=
  match x with
  | .ok _ s => P s
  | .raised e s => Q e s
  | .stuck _ => True
  | .refused _ => True

theorem ends_ok {α : Type} {a : α} {s : State} {P : State → Prop} {Q : Error → State → Prop} (h : P s) :
    (Res.ok a s).ends P Q := h

theorem ends_bind {α β : Type} {x : Res α} {k : α → State → Res β} {P P' : State → Prop} {Q : Error → State → Prop}
    (hx : x.ends P Q) (hk : ∀ a s, P s → (k a s).ends P' Q) : (x.bind k).ends P' Q := by
  cases x with
  | ok a s => exact hk a s hx
  | raised e s => exact hx
  | stuck f => trivial
  | refused r => trivial

theorem ends_mono {α : Type} {x : Res α} {P P' : State → Prop} {Q Q' : Error → State → Prop}
    (hx : x.ends P Q) (hP : ∀ s, P s → P' s) (hQ : ∀ e s, Q e s → Q' e s) : x.ends P' Q' := by
  cases x with
  | ok a s => exact hP s hx
  | raised e s => exact hQ e s hx
  | stuck f => trivial
  | refused r => trivial

theorem ends_inOrder {l : List (State → Res Unit)} {P : State → Prop} {Q : Error → State → Prop}
    (h : ∀ p ∈ l, ∀ s, P s → (p s).ends P Q) : ∀ s, P s → (inOrder l s).ends P Q := by
  induction l with
  | nil => intro s hs; exact hs
  | cons p l ih =>
    intro s hs
    exact ends_bind (h p (by simp) s hs) fun _ s' hs' => ih (fun q hq => h q (by simp [hq])) s' hs'

/-! How an operation ends. -/

/-- An operation that answers a next state presented its results or raised. -/
theorem complete_eq_next {x : Res Results} {t : State} :
    x.complete = .next t ↔
      (∃ res s, x = .ok res s ∧ t = s.present res) ∨ ∃ e s, x = .raised e s ∧ t = s.raise e := by
  cases x <;> simp [Res.complete, eq_comm]

/-- The same for an operation without result ports. -/
theorem silent_complete_eq_next {x : Res Unit} {t : State} :
    x.silent.complete = .next t ↔
      (∃ s, x = .ok () s ∧ t = s.present noResults) ∨ ∃ e s, x = .raised e s ∧ t = s.raise e := by
  cases x <;> simp [Res.silent, Res.complete, eq_comm]

@[simp] theorem complete_ok (res : Results) (s : State) : (Res.ok res s).complete = .next (s.present res) := rfl

@[simp] theorem complete_raised (e : Error) (s : State) :
    (Res.raised e s : Res Results).complete = .next (s.raise e) := rfl

@[simp] theorem silent_ok (s : State) : (Res.ok () s).silent = .ok noResults s := rfl

@[simp] theorem silent_raised (e : Error) (s : State) : (Res.raised e s : Res Unit).silent = .raised e s := rfl

/-- What holds where an operation ends holds of the next state, if presenting and raising carry it over. -/
theorem next_of_ends {x : Res Results} {P : State → Prop} {Q : Error → State → Prop} {R : State → Prop} {t : State}
    (hx : x.ends P Q) (hP : ∀ s res, P s → R (s.present res)) (hQ : ∀ e s, Q e s → R (s.raise e))
    (h : x.complete = .next t) : R t := by
  rcases complete_eq_next.mp h with ⟨res, s, rfl, rfl⟩ | ⟨e, s, rfl, rfl⟩
  · exact hP s res hx
  · exact hQ e s hx

theorem silent_ends {x : Res Unit} {P : State → Prop} {Q : Error → State → Prop} (hx : x.ends P Q) :
    x.silent.ends P Q := ends_bind hx fun _ _ hs => hs

/-! The next state of an operation as an update of the state it ended at: the ports it does not define, and the draw
counter, have some value. -/

theorem silent_next {x : Res Unit} {t : State} (h : x = .ok () t) :
    ∃ r o d, x.silent.complete = .next { t with st := 0, r := r, dout := o, drawn := d } := by
  subst h; exact ⟨_, _, _, rfl⟩

theorem silent_raised_next {x : Res Unit} {e : Error} {t : State} (h : x = .raised e t) :
    ∃ r o d, x.silent.complete = .next { t.errorState e with st := errorCode e, r := r, dout := o, drawn := d } := by
  subst h; exact ⟨_, _, _, rfl⟩

theorem raised_next {x : Res Results} {e : Error} {t : State} (h : x = .raised e t) :
    ∃ r o d, x.complete = .next { t.errorState e with st := errorCode e, r := r, dout := o, drawn := d } := by
  subst h; exact ⟨_, _, _, rfl⟩

theorem withR_next {x : Res Results} {v : BitVec 64} {t : State} (h : x = withR v t) :
    ∃ o d, x.complete = .next { t with st := 0, r := v, dout := o, drawn := d } := by
  subst h; exact ⟨_, _, rfl⟩

theorem withDout_next {x : Res Results} {bytes : List Byte} {t : State} (h : x = withDout bytes t) :
    ∃ r d, x.complete = .next { t with st := 0, r := r, dout := bytes, drawn := d } := by
  subst h; exact ⟨_, _, rfl⟩

/-! Gates. -/

theorem requireTouchReady_of (s : State) (h : s.tReady = true) : requireTouchReady s = .ok () s := by
  simp [requireTouchReady, h]

theorem requireTouchReady_not (s : State) (h : s.tReady = false) : requireTouchReady s = .raised .notReady s := by
  simp [requireTouchReady, h]

theorem requirePanelReady_of (s : State) (h : s.eReady = true) : requirePanelReady s = .ok () s := by
  simp [requirePanelReady, h]

theorem requirePanelReady_not (s : State) (h : s.eReady = false) : requirePanelReady s = .raised .notReady s := by
  simp [requirePanelReady, h]

/-! Environment calls move only the trace, the answers and the draw counter. -/

/-- `s'` is `s` after calls of the environment: only the trace, the answers and the draw counter differ. -/
def CallsOnly (s s' : State) : Prop :=
  ∃ tr an d, s' = { s with trace := tr, answers := an, drawn := d }

theorem CallsOnly.refl (s : State) : CallsOnly s s := ⟨s.trace, s.answers, s.drawn, rfl⟩

theorem CallsOnly.trans {a b c : State} (h1 : CallsOnly a b) (h2 : CallsOnly b c) : CallsOnly a c := by
  obtain ⟨_, _, _, rfl⟩ := h1
  obtain ⟨tr, an, d, rfl⟩ := h2
  exact ⟨tr, an, d, rfl⟩

theorem CallsOnly.emit (s : State) (e : Record) : CallsOnly s (s.emit e) := ⟨_, _, _, rfl⟩

theorem CallsOnly.afterDraw (s : State) (a : Answers) : CallsOnly s (s.afterDraw a) := ⟨_, _, _, rfl⟩

/-- What such calls leave alone. -/
theorem CallsOnly.same {s s' : State} (h : CallsOnly s s') :
    s'.buf = s.buf ∧ s'.cur = s.cur ∧ s'.bend = s.bend ∧ s'.touch = s.touch ∧ s'.tReady = s.tReady ∧
      s'.panel = s.panel ∧ s'.eReady = s.eReady ∧ s'.st = s.st ∧ s'.r = s.r ∧ s'.dout = s.dout ∧
      s'.requests = s.requests ∧ s'.par = s.par := by
  obtain ⟨_, _, _, rfl⟩ := h
  simp

/-- A register read goes on with the answer or raises `TransportError` in TES. -/
theorem regRead_ends (reg : BitVec 16) (n : Nat) (s : State) :
    (regRead reg n s).ends (CallsOnly s) fun e s' => e = .transportError .touchUnit ∧ CallsOnly s s' := by
  unfold regRead
  have h : ∀ a e, CallsOnly s ((s.afterDraw a).emit e) := fun a e => ⟨_, _, _, rfl⟩
  cases s.nextRegRead with
  | none => exact ⟨rfl, h _ _⟩
  | some b => exact h _ _

/-- A register read that is answered with bytes. -/
theorem regRead_answered (reg : BitVec 16) (n : Nat) (s : State) (bytes : List Byte)
    (rest : List (Option (List Byte))) (h : s.answers.regRead = some bytes :: rest) :
    regRead reg n s =
      .ok bytes ((s.afterDraw { s.answers with regRead := rest }).emit (readRecord s.par reg n bytes)) := by
  simp [regRead, State.nextRegRead, h, readRecord]

/-- A register read that fails. -/
theorem regRead_failed (reg : BitVec 16) (n : Nat) (s : State) (rest : List (Option (List Byte)))
    (h : s.answers.regRead = none :: rest) :
    regRead reg n s =
      .raised (.transportError .touchUnit) ((s.afterDraw { s.answers with regRead := rest }).emit
        (.i2cRead (touchDevAddr s.par) (registerBytes reg) n none)) := by
  simp [regRead, State.nextRegRead, h]

/-- A register write goes on or raises `TransportError` in TES. -/
theorem regWrite_ends (reg : BitVec 16) (p : List Byte) (s : State) :
    (regWrite reg p s).ends (CallsOnly s) fun e s' => e = .transportError .touchUnit ∧ CallsOnly s s' := by
  unfold regWrite
  have h : ∀ a e, CallsOnly s ((s.afterDraw a).emit e) := fun a e => ⟨_, _, _, rfl⟩
  cases s.nextRegWrite with
  | false => exact ⟨rfl, h _ _⟩
  | true => exact h _ _

/-- A register write that succeeds. -/
theorem regWrite_ok (reg : BitVec 16) (p : List Byte) (s : State) (rest : List Bool)
    (h : s.answers.regWrite = true :: rest) :
    regWrite reg p s =
      .ok () ((s.afterDraw { s.answers with regWrite := rest }).emit (writeRecord s.par reg p)) := by
  simp [regWrite, State.nextRegWrite, h, writeRecord]

/-- A field of an answer is there, or `OutOfRange` is raised; no state moves. -/
theorem fieldOr_ends {α : Type} (f : Option α) (s : State) :
    (fieldOr f s).ends (fun s' => s' = s ∧ f ≠ none) fun e s' => e = .outOfRange ∧ s' = s ∧ f = none := by
  cases f with
  | none => exact ⟨rfl, rfl, rfl⟩
  | some a => exact ⟨rfl, by simp⟩

/-- Reading exactly `n` bytes. -/
theorem regReadExact_answered (reg : BitVec 16) (n : Nat) (s : State) (bytes : List Byte)
    (rest : List (Option (List Byte))) (h : s.answers.regRead = some bytes :: rest) (hn : n ≤ bytes.length) :
    regReadExact reg n s =
      .ok (bytes.take n) ((s.afterDraw { s.answers with regRead := rest }).emit (readRecord s.par reg n bytes)) := by
  have : ¬ bytes.length < n := by omega
  simp [regReadExact, regRead_answered reg n s bytes rest h, exactly, this, fieldOr]

/-- Reading too few bytes. -/
theorem regReadExact_short (reg : BitVec 16) (n : Nat) (s : State) (bytes : List Byte)
    (rest : List (Option (List Byte))) (h : s.answers.regRead = some bytes :: rest) (hn : bytes.length < n) :
    regReadExact reg n s =
      .raised .outOfRange ((s.afterDraw { s.answers with regRead := rest }).emit (readRecord s.par reg n bytes)) := by
  simp [regReadExact, regRead_answered reg n s bytes rest h, exactly, hn, fieldOr]

theorem regReadExact_ends (reg : BitVec 16) (n : Nat) (s : State) :
    (regReadExact reg n s).ends (CallsOnly s) fun e s' =>
      (e = .transportError .touchUnit ∨ e = .outOfRange) ∧ CallsOnly s s' := by
  refine ends_bind (ends_mono (regRead_ends reg n s) (fun _ h => h) fun _ _ h => ⟨.inl h.1, h.2⟩) ?_
  intro bytes s1 h1
  refine ends_mono (fieldOr_ends _ s1) ?_ ?_
  · rintro s2 ⟨rfl, -⟩; exact h1
  · rintro e s2 ⟨rfl, rfl, -⟩; exact ⟨.inr rfl, h1⟩

theorem regReadByte_ends (reg : BitVec 16) (s : State) :
    (regReadByte reg s).ends (CallsOnly s) fun e s' =>
      (e = .transportError .touchUnit ∨ e = .outOfRange) ∧ CallsOnly s s' :=
  ends_bind (regReadExact_ends reg 1 s) fun _ _ h => h

/-- A wait ends with an answer, or never. -/
theorem touchWait_ends (tm : Timeout) (s : State) (Q : Error → State → Prop) :
    (touchWait tm s).ends (CallsOnly s) Q := by
  unfold touchWait lineWait
  cases waitResult tm s.nextTouchWait with
  | none => trivial
  | some b => exact ⟨_, _, _, rfl⟩

theorem orderEvents_ends (es : List TouchEvent) (s : State) (Q : Error → State → Prop) :
    (orderEvents es s).ends (CallsOnly s) Q := ⟨_, _, _, rfl⟩

end Sys2Proof.Machine
end

