-- ==== Sys2Proof/Laws/Codec.lean ====
section
/-! SUPPORT. Byte order conversion, and what each shared BBC operation can do (40_codec.md). -/

namespace Sys2Proof.Machine

@[simp] theorem bytesLE_length (n : Nat) : ∀ v, (bytesLE n v).length = n := by
  induction n with
  | zero => intro v; rfl
  | succ n ih => intro v; simp [bytesLE, ih]

@[simp] theorem bytesOf_length (e : Endian) (n v : Nat) : (bytesOf e n v).length = n := by
  cases e <;> simp [bytesOf]

/-- Reading back what was laid out gives the value modulo its width. -/
theorem valLE_bytesLE (n : Nat) : ∀ v, valLE (bytesLE n v) = v % 256 ^ n := by
  induction n with
  | zero => intro v; simp [bytesLE, valLE, Nat.mod_one]
  | succ n ih =>
    intro v
    have h : v % 256 ^ (n + 1) = v % 256 + 256 * (v / 256 % 256 ^ n) := by
      rw [Nat.pow_succ, Nat.mul_comm (256 ^ n) 256, Nat.mod_mul]
    rw [h]
    simp [bytesLE, valLE, ih]

/-- `Val(Bytes(v, n, e), e)` (R142). -/
theorem valOf_bytesOf (e : Endian) (n v : Nat) : valOf e (bytesOf e n v) = v % 256 ^ n := by
  cases e <;> simp [valOf, bytesOf, valLE_bytesLE]

theorem bytesLE_valLE (s : List Byte) : bytesLE s.length (valLE s) = s := by
  induction s with
  | nil => rfl
  | cons b s ih =>
    have h1 : (b.toNat + 256 * valLE s) / 256 = valLE s := by have := b.isLt; omega
    have h2 : BitVec.ofNat 8 (b.toNat + 256 * valLE s) = b := by
      apply BitVec.eq_of_toNat_eq
      rw [BitVec.toNat_ofNat]
      have := b.isLt
      omega
    simp [valLE, bytesLE, h1, h2, ih]

/-- `Bytes(Val(s, e), len(s), e)` (R142). -/
theorem bytesOf_valOf (e : Endian) (s : List Byte) : bytesOf e s.length (valOf e s) = s := by
  cases e with
  | little => exact bytesLE_valLE s
  | big =>
    have h := bytesLE_valLE s.reverse
    rw [List.length_reverse] at h
    simp [bytesOf, valOf, h]

/-- What `B.WRAP` can do (R140). -/
theorem wrapBuffer_cases (e : Endian) (din : List Byte) (s : State) :
    (s.par.bufMax.toNat < din.length ∧ wrapBuffer e din s = .raised .capacityExceeded s) ∨
      (din.length ≤ s.par.bufMax.toNat ∧
        wrapBuffer e din s = .ok noResults { s with buf := Memory.ofBytes din, bend := e, cur := 0 }) := by
  unfold wrapBuffer
  split <;> simp_all

/-- What `B.READ` can do (R141). -/
theorem readBuffer_cases (n : Nat) (s : State) :
    (s.buf.size - s.cur.toNat < n ∧ readBuffer n s = .raised .outOfRange s) ∨
      (n ≤ s.buf.size - s.cur.toNat ∧
        readBuffer n s =
          withR (BitVec.ofNat 64 (valOf s.bend (s.buf.memRead s.cur.toNat n)))
            { s with cur := BitVec.ofNat 64 (s.cur.toNat + n) }) := by
  unfold readBuffer
  split
  · exact .inl ⟨‹_›, rfl⟩
  · exact .inr ⟨by omega, rfl⟩

/-- What `B.WRITE` can do (R143). -/
theorem writeBuffer_cases (n v : Nat) (s : State) :
    (s.par.bufMax.toNat < s.cur.toNat + n ∧ writeBuffer n v s = .raised .capacityExceeded s) ∨
      (s.cur.toNat + n ≤ s.par.bufMax.toNat ∧
        writeBuffer n v s =
          .ok noResults
            { s with
              buf := (growBuffer n s).memWrite s.cur.toNat (bytesOf s.bend n v)
              cur := BitVec.ofNat 64 (s.cur.toNat + n) }) := by
  unfold writeBuffer
  split
  · exact .inl ⟨‹_›, rfl⟩
  · exact .inr ⟨by omega, rfl⟩

/-- What `B.SEEK` can do (R145). -/
theorem seekBuffer_cases (o : Origin) (off : BitVec 64) (s : State) :
    ((seekBase o s + off.toInt < 0 ∨ (s.buf.size : Int) < seekBase o s + off.toInt) ∧
        seekBuffer o off s = .raised .outOfRange s) ∨
      (0 ≤ seekBase o s + off.toInt ∧ seekBase o s + off.toInt ≤ s.buf.size ∧
        seekBuffer o off s = .ok noResults { s with cur := BitVec.ofInt 64 (seekBase o s + off.toInt) }) := by
  unfold seekBuffer
  split
  · exact .inl ⟨‹_›, rfl⟩
  · exact .inr ⟨by omega, by omega, rfl⟩

/-- The grown buffer keeps every byte it had and is just long enough (R143, R151). -/
theorem growBuffer_toBytes (n : Nat) (s : State) :
    ∃ fresh, (growBuffer n s).toBytes = s.buf.toBytes ++ fresh ∧ fresh.length = s.cur.toNat + n - s.buf.size ∨
      (growBuffer n s).toBytes = s.buf.toBytes ∧ fresh = [] ∧ n ≤ s.buf.size - s.cur.toNat := by
  unfold growBuffer
  split
  · exact ⟨(List.range (s.cur.toNat + n - s.buf.size)).map (Config.growthByte s.drawn), .inl ⟨by
      simp [Memory.append], by simp⟩⟩
  · exact ⟨[], .inr ⟨rfl, rfl, by omega⟩⟩

/-- The bytes after a write at `cur <= len`: "Bytes below `cur` are never changed", the value's bytes, then what
stood beyond them; no grown byte is left (R143). -/
theorem write_toBytes (n v : Nat) (s : State) (hc : s.cur.toNat ≤ s.buf.size) :
    ((growBuffer n s).memWrite s.cur.toNat (bytesOf s.bend n v)).toBytes =
      s.buf.toBytes.take s.cur.toNat ++ bytesOf s.bend n v ++ s.buf.toBytes.drop (s.cur.toNat + n) := by
  have hl : s.buf.toBytes.length = s.buf.size := toBytes_length _
  rw [toBytes_memWrite, bytesOf_length]
  obtain ⟨fresh, ⟨h, hf⟩ | ⟨h, -, hn⟩⟩ := growBuffer_toBytes n s
  · rw [h, List.take_append_of_le_length (by omega)]
    congr 1
    rw [List.drop_append, List.drop_of_length_le (l := fresh)]
    · simp
    · omega
  · rw [h]

end Sys2Proof.Machine
end

