-- ==== Sys2Proof/Laws/Panel.lean ====
section
/-! SUPPORT. The panel sequencer: a piece of it moves nothing but the trace, the answers and the draw counter, raises
nothing but `TransportError`, and emits known records where no call fails. -/

namespace Sys2Proof.Machine

/-! What a piece leaves alone. -/

/-- A piece that only calls the panel's environment. -/
def PanelPiece (p : State → Res Unit) : Prop :=
  ∀ s, (p s).ends (CallsOnly s) fun e s' => e = .transportError .panelUnit ∧ CallsOnly s s'

theorem PanelPiece.ends {p : State → Res Unit} (h : PanelPiece p) (s0 s : State) (hs : CallsOnly s0 s) :
    (p s).ends (CallsOnly s0) fun e s' => e = .transportError .panelUnit ∧ CallsOnly s0 s' :=
  ends_mono (h s) (fun _ h' => hs.trans h') fun _ _ h' => ⟨h'.1, hs.trans h'.2⟩

theorem PanelPiece.inOrder {l : List (State → Res Unit)} (h : ∀ p ∈ l, PanelPiece p) : PanelPiece (inOrder l) :=
  fun s => ends_inOrder (P := CallsOnly s) (fun p hp s' hs' => (h p hp).ends s s' hs') s (.refl s)

theorem panelPiece_lineSet (l : Line) (b : Bool) : PanelPiece (lineSet l b) := fun s => .emit s _

theorem panelPiece_lineDrain (l : Line) : PanelPiece (lineDrain l) := fun s => .emit s _

theorem panelPiece_pause (n : Nat) : PanelPiece (pause n) := fun s => .emit s _

theorem panelPiece_spiWrite (bytes : List Byte) : PanelPiece (spiWrite bytes) := by
  intro s
  unfold spiWrite
  have h : ∀ a e, CallsOnly s ((s.afterDraw a).emit e) := fun a e => ⟨_, _, _, rfl⟩
  cases s.nextSpiWrite with
  | false => exact ⟨rfl, h _ _⟩
  | true => exact h _ _

theorem panelPiece_sendCmd (op : Byte) (payload : List Byte) : PanelPiece (sendCmd op payload) := by
  refine PanelPiece.inOrder ?_
  split
  · simp [panelPiece_lineSet, panelPiece_spiWrite]
  · simp [panelPiece_lineSet, panelPiece_spiWrite]

theorem panelPiece_waitForBusy : PanelPiece waitForBusy := by
  intro s
  unfold waitForBusy busyGet
  simp only [bind_ok]
  split
  · refine ends_bind (PanelPiece.ends (panelPiece_lineDrain .eBusy) s _ ⟨_, _, _, rfl⟩) fun _ s2 h2 => ?_
    refine ends_bind (P := CallsOnly s) ?_ fun _ s3 h3 => PanelPiece.ends (panelPiece_lineDrain .eBusy) s _ h3
    unfold busyWait lineWait
    cases waitResult s2.par.busyTimeout s2.nextBusyWait with
    | none => trivial
    | some b => exact h2.trans ⟨_, _, _, rfl⟩
  · exact ⟨_, _, _, rfl⟩

theorem panelPiece_resetAction (a : ResetAction) : PanelPiece (resetAction a) := by
  cases a with
  | setLine b => exact panelPiece_lineSet .eRst b
  | pause n => exact panelPiece_pause n

theorem panelPiece_hwReset : PanelPiece hwReset := by
  intro s
  refine (PanelPiece.inOrder ?_) s
  intro p hp
  obtain ⟨a, -, rfl⟩ := List.mem_map.mp hp
  exact panelPiece_resetAction a

theorem panelPiece_sendDriverOutputControl : PanelPiece sendDriverOutputControl :=
  fun s => panelPiece_sendCmd _ _ s

theorem panelPiece_sendDataInputMode : PanelPiece sendDataInputMode := fun s => panelPiece_sendCmd _ _ s

/-- `apply_config` writes no block state (R214). -/
theorem panelPiece_applyConfig (m : RefreshMode) : PanelPiece (applyConfig m) := by
  refine PanelPiece.inOrder ?_
  cases m <;>
    simp [waveformCommands, panelPiece_hwReset, panelPiece_sendCmd, panelPiece_waitForBusy,
      panelPiece_sendDataInputMode, panelPiece_sendDriverOutputControl]

/-- `refresh_display` writes no block state (R215). -/
theorem panelPiece_refreshDisplay (m : RefreshMode) : PanelPiece (refreshDisplay m) := by
  refine PanelPiece.inOrder ?_
  simp [panelPiece_sendCmd, panelPiece_waitForBusy]

theorem panelPiece_setDrawRegion (a b c d : Nat) : PanelPiece (setDrawRegion a b c d) := by
  refine PanelPiece.inOrder ?_
  simp [panelPiece_sendCmd]

theorem panelPiece_setDrawOffset (a b : Nat) : PanelPiece (setDrawOffset a b) := by
  refine PanelPiece.inOrder ?_
  simp [panelPiece_sendCmd]

theorem panelPiece_uploadFull (data : List Byte) : PanelPiece (uploadFull data) := by
  intro s
  refine PanelPiece.inOrder ?_ s
  simp [panelPiece_setDrawRegion, panelPiece_setDrawOffset, panelPiece_sendCmd]

theorem panelPiece_uploadRow (o : Overlap) (px py : Int) (bw bh : BitVec 16) (din : List Byte) (r : Nat) :
    PanelPiece (uploadRow o px py bw bh din r) := by
  intro s
  refine PanelPiece.inOrder ?_ s
  simp [panelPiece_setDrawOffset, panelPiece_sendCmd, panelPiece_lineSet, panelPiece_spiWrite]

theorem panelPiece_uploadBitmap (px py : Int) (bw bh : BitVec 16) (din : List Byte) :
    PanelPiece (uploadBitmap px py bw bh din) := by
  intro s
  unfold uploadBitmap
  dsimp only
  split
  · exact CallsOnly.refl s
  · refine PanelPiece.inOrder ?_ s
    intro p hp
    rcases List.mem_cons.mp hp with rfl | hp
    · exact panelPiece_setDrawRegion _ _ _ _
    · obtain ⟨r, -, rfl⟩ := List.mem_map.mp hp
      exact panelPiece_uploadRow _ _ _ _ _ _ _


end Sys2Proof.Machine
end

