-- ==== Sys2Proof/Laws/PanelTrace.lean ====
section
/-! SUPPORT. What the panel sequencer emits where no call fails and the panel is never busy: each procedure's records,
in order, and nothing else. -/

namespace Sys2Proof.Machine

theorem spiCalls_append (a b : List Record) : spiCalls (a ++ b) = spiCalls a + spiCalls b := by
  simp [spiCalls, List.countP_append]

theorem busyCalls_append (a b : List Record) : busyCalls (a ++ b) = busyCalls a + busyCalls b := by
  simp [busyCalls, List.countP_append]

@[simp] theorem ran_nil (s : State) : s.ran [] = s := by
  simp [State.ran, spiCalls, busyCalls]

theorem ran_append (s : State) (a b : List Record) : s.ran (a ++ b) = (s.ran a).ran b := by
  simp only [State.ran, spiCalls_append, busyCalls_append, List.drop_drop, List.append_assoc, State.mk.injEq,
    true_and, and_true]
  omega

theorem ran_callsOnly (s : State) (es : List Record) : CallsOnly s (s.ran es) := ⟨_, _, _, rfl⟩

theorem take_replicate_append {α : Type} (x : α) (l : List α) (m n : Nat) :
    l.take (m + n) = List.replicate (m + n) x ↔
      l.take m = List.replicate m x ∧ (l.drop m).take n = List.replicate n x := by
  rw [List.take_add, List.replicate_add]
  constructor
  · intro h
    have hl : (List.take m l).length = m := by
      have h1 := congrArg List.length h
      simp only [List.length_append, List.length_take, List.length_drop, List.length_replicate] at h1 ⊢
      omega
    exact List.append_inj h (by simpa using hl)
  · rintro ⟨h1, h2⟩
    rw [h1, h2]

theorem quietFor_append (s : State) (a b : List Record) :
    s.quietFor (a ++ b) ↔ s.quietFor a ∧ (s.ran a).quietFor b := by
  simp only [State.quietFor, State.ran, spiCalls_append, busyCalls_append, take_replicate_append]
  tauto

/-- A piece emits these records and goes on, from every state that differs from `s0` by calls alone. -/
def Emits (p : State → Res Unit) (s0 : State) (es : List Record) : Prop :=
  ∀ s, CallsOnly s0 s → s.quietFor es → p s = .ok () (s.ran es)

/-- Pieces in order emit their records in order. -/
theorem Emits.nil (s0 : State) : Emits (inOrder []) s0 [] := fun s _ _ => by simp

theorem Emits.cons {p : State → Res Unit} {l : List (State → Res Unit)} {s0 : State} {a b : List Record}
    (hp : Emits p s0 a) (hl : Emits (inOrder l) s0 b) : Emits (inOrder (p :: l)) s0 (a ++ b) := by
  intro s hs hq
  obtain ⟨qa, qb⟩ := (quietFor_append s a b).mp hq
  rw [inOrder_cons, hp s hs qa, bind_ok, hl _ (hs.trans (ran_callsOnly s a)) qb, ran_append]

theorem Emits.one {p : State → Res Unit} {s0 : State} {a : List Record} (hp : Emits p s0 a) :
    Emits (inOrder [p]) s0 a := by
  have h := hp.cons (Emits.nil s0)
  rwa [List.append_nil] at h

theorem Emits.append {l1 l2 : List (State → Res Unit)} {s0 : State} {a b : List Record}
    (h1 : Emits (inOrder l1) s0 a) (h2 : Emits (inOrder l2) s0 b) : Emits (inOrder (l1 ++ l2)) s0 (a ++ b) := by
  intro s hs hq
  obtain ⟨qa, qb⟩ := (quietFor_append s a b).mp hq
  rw [inOrder_append, h1 s hs qa, bind_ok, h2 _ (hs.trans (ran_callsOnly s a)) qb, ran_append]

theorem emits_lineSet (l : Line) (b : Bool) (s0 : State) : Emits (lineSet l b) s0 [.lineSet l b] := by
  intro s _ _
  simp [lineSet, State.emit, State.ran, spiCalls, busyCalls]

theorem emits_pause (n : Nat) (s0 : State) : Emits (pause n) s0 [.pause n] := by
  intro s _ _
  simp [pause, State.emit, State.ran, spiCalls, busyCalls]

theorem headD_of_take_one {α : Type} {l : List α} {x d : α} (h : l.take 1 = [x]) : l.headD d = x := by
  cases l with
  | nil => simp at h
  | cons a l => simpa using h

theorem emits_spiWrite (bytes : List Byte) (s0 : State) : Emits (spiWrite bytes) s0 [.spiWrite bytes true] := by
  intro s _ hq
  have h1 : s.answers.spiWrite.take 1 = [true] := by simpa [State.quietFor, spiCalls, busyCalls] using hq
  have h2 : s.nextSpiWrite = true := headD_of_take_one h1
  simp [spiWrite, h2, State.emit, State.afterDraw, State.ran, spiCalls, busyCalls]

theorem emits_waitForBusy (s0 : State) : Emits waitForBusy s0 idleRecords := by
  intro s _ hq
  have h1 : s.answers.busyLevel.take 1 = [false] := by
    simpa [State.quietFor, spiCalls, busyCalls, idleRecords] using hq
  have h2 : s.nextBusyLevel = false := headD_of_take_one h1
  simp [waitForBusy, busyGet, h2, State.emit, State.afterDraw, State.ran, spiCalls, busyCalls, idleRecords]

/-- `SendCmd` (R211). -/
theorem emits_sendCmd (op : Byte) (payload : List Byte) (s0 : State) :
    Emits (sendCmd op payload) s0 (cmdRecords op payload) := by
  have h1 : Emits (inOrder [lineSet .eDc false, spiWrite [op]]) s0 [.lineSet .eDc false, .spiWrite [op] true] :=
    (emits_lineSet .eDc false s0).cons (emits_spiWrite [op] s0).one
  unfold cmdRecords
  by_cases hp : payload = []
  · intro s hs hq
    have h := h1.append (Emits.nil s0) s hs
    simp only [hp, if_true] at hq ⊢
    have h' := h hq
    simpa [sendCmd] using h'
  · intro s hs hq
    have h2 : Emits (inOrder [lineSet .eDc true, spiWrite payload]) s0
        [.lineSet .eDc true, .spiWrite payload true] :=
      (emits_lineSet .eDc true s0).cons (emits_spiWrite payload s0).one
    simp only [if_neg hp] at hq ⊢
    have h' := h1.append h2 s hs hq
    simpa only [sendCmd, if_neg hp] using h'

theorem emits_resetActions (l : List ResetAction) (s0 : State) :
    Emits (inOrder (l.map resetAction)) s0 (l.map resetRecord) := by
  induction l with
  | nil => exact Emits.nil s0
  | cons a l ih =>
    refine Emits.cons (a := [resetRecord a]) ?_ ih
    cases a with
    | setLine b => exact emits_lineSet .eRst b s0
    | pause n => exact emits_pause n s0

theorem emits_hwReset (s0 : State) : Emits hwReset s0 ((epdHwResetSeq s0.par).map resetRecord) := by
  intro s hs hq
  have hp : s.par = s0.par := by obtain ⟨_, _, _, rfl⟩ := hs; rfl
  unfold hwReset
  rw [hp]
  exact emits_resetActions _ s0 s hs hq

theorem emits_sendDataInputMode (s0 : State) :
    Emits sendDataInputMode s0 (cmdRecords 0x11 [epdDimArg s0.par]) := by
  intro s hs hq
  have hp : s.par = s0.par := by obtain ⟨_, _, _, rfl⟩ := hs; rfl
  unfold sendDataInputMode
  rw [hp]
  exact emits_sendCmd _ _ s0 s hs hq

theorem emits_sendDriverOutputControl (s0 : State) :
    Emits sendDriverOutputControl s0 (cmdRecords 0x01 (epdDocPayload s0.par s0.panel.width s0.panel.height)) := by
  intro s hs hq
  have hp : s.par = s0.par ∧ s.panel = s0.panel := by obtain ⟨_, _, _, rfl⟩ := hs; exact ⟨rfl, rfl⟩
  unfold sendDriverOutputControl
  rw [hp.1, hp.2]
  exact emits_sendCmd _ _ s0 s hs hq

/-- `apply_config(mode)` (R214). -/
theorem emits_applyConfig (m : RefreshMode) (s0 : State) :
    Emits (applyConfig m) s0 (applyConfigRecords s0.par s0.panel.width s0.panel.height m) := by
  have h5 := (emits_hwReset s0).cons ((emits_sendCmd 0x12 [] s0).cons ((emits_waitForBusy s0).cons
    ((emits_sendDataInputMode s0).cons (emits_sendDriverOutputControl s0).one)))
  have hm : Emits (inOrder (waveformCommands m)) s0 (waveformRecords m) := by
    cases m with
    | partialMode => exact (emits_sendCmd 0x3c [0x80] s0).one
    | fullMode =>
      have h3 := (emits_sendCmd 0x3c [0x05] s0).cons ((emits_sendCmd 0x21 [0x00, 0x80] s0).cons
        (emits_sendCmd 0x18 [0x80] s0).one)
      rw [← List.append_assoc] at h3
      exact h3
  have h := (h5.append hm).append (emits_waitForBusy s0).one
  intro s hs hq
  have := h s hs (by simpa only [applyConfigRecords, List.append_assoc] using hq)
  simpa only [applyConfig, applyConfigRecords, List.append_assoc] using this

/-- `refresh_display(mode)` (R215). -/
theorem emits_refreshDisplay (m : RefreshMode) (s0 : State) : Emits (refreshDisplay m) s0 (refreshRecords m) := by
  have h := (emits_sendCmd 0x22 (updateModePayload m) s0).cons ((emits_sendCmd 0x20 [] s0).cons
    (emits_waitForBusy s0).one)
  rw [← List.append_assoc] at h
  cases m <;> exact h

theorem emits_setDrawRegion (x0 y0 x1 y1 : Nat) (s0 : State) :
    Emits (setDrawRegion x0 y0 x1 y1) s0 (drawRegionRecords x0 y0 x1 y1) :=
  (emits_sendCmd 0x44 (drawRegionXPayload x0 x1) s0).cons (emits_sendCmd 0x45 (drawRegionYPayload y0 y1) s0).one

theorem emits_setDrawOffset (ox oy : Nat) (s0 : State) :
    Emits (setDrawOffset ox oy) s0 (drawOffsetRecords ox oy) :=
  (emits_sendCmd 0x4e (drawOffsetXPayload ox) s0).cons (emits_sendCmd 0x4f (drawOffsetYPayload oy) s0).one

/-- `UploadFull(data)` (R223). -/
theorem emits_uploadFull (data : List Byte) (s0 : State) :
    Emits (uploadFull data) s0 (uploadFullRecords s0.panel.width s0.panel.height data) := by
  intro s hs hq
  have hp : s.panel = s0.panel := by obtain ⟨_, _, _, rfl⟩ := hs; rfl
  have h := (emits_setDrawRegion 0 0 (s0.panel.width.toNat - 1) (s0.panel.height.toNat - 1) s0).cons
    ((emits_setDrawOffset 0 0 s0).cons (emits_sendCmd 0x24 data s0).one)
  unfold uploadFull
  rw [hp]
  simpa only [uploadFullRecords, List.append_assoc] using
    h s hs (by simpa only [uploadFullRecords, List.append_assoc] using hq)

/-- One row of a bitmap (R228). -/
theorem emits_uploadRow (px py : Int) (bw bh : BitVec 16) (din : List Byte) (r : Nat) (s0 : State) :
    Emits (uploadRow (overlapOf s0.panel px py bw bh) px py bw bh din r) s0
      (uploadRowRecords s0.par s0.panel px py bw bh din r) := by
  intro s hs hq
  have hp : s.par = s0.par ∧ s.panel = s0.panel := by obtain ⟨_, _, _, rfl⟩ := hs; exact ⟨rfl, rfl⟩
  have h := fun ox oy d => (emits_setDrawOffset ox oy s0).cons ((emits_sendCmd 0x24 [] s0).cons
    ((emits_lineSet .eDc true s0).cons (emits_spiWrite d s0).one))
  unfold uploadRow
  rw [hp.1, hp.2]
  have h' := h _ _ _ s hs (by
    simpa only [uploadRowRecords, List.append_assoc, List.cons_append, List.nil_append] using hq)
  simpa only [uploadRowRecords, rowOffset, List.append_assoc, List.cons_append, List.nil_append] using h'

/-- `UploadBitmap` (R228). -/
theorem emits_uploadBitmap (px py : Int) (bw bh : BitVec 16) (din : List Byte) (s0 : State) :
    Emits (uploadBitmap px py bw bh din) s0 (uploadBitmapRecords s0.par s0.panel px py bw bh din) := by
  intro s hs hq
  have hp : s.par = s0.par ∧ s.panel = s0.panel := by obtain ⟨_, _, _, rfl⟩ := hs; exact ⟨rfl, rfl⟩
  have rows : ∀ l : List Nat,
      Emits (inOrder (l.map (uploadRow (overlapOf s0.panel px py bw bh) px py bw bh din))) s0
        (l.flatMap (uploadRowRecords s0.par s0.panel px py bw bh din)) := by
    intro l
    induction l with
    | nil => exact Emits.nil s0
    | cons r l ih => exact (emits_uploadRow px py bw bh din r s0).cons ih
  unfold uploadBitmap
  unfold uploadBitmapRecords at hq ⊢
  rw [hp.2]
  by_cases he : overlapEmpty (overlapOf s0.panel px py bw bh) = true
  · simp only [he, if_true] at hq ⊢
    simp
  · simp only [he] at hq ⊢
    exact (emits_setDrawRegion _ _ _ _ s0).cons (rows _) s hs hq

/-- A command at primitive grain (R211). -/
theorem sendCmd_complete (op : Byte) (payload : List Byte) (s : State) (hq : s.quietFor (cmdRecords op payload)) :
    (sendCmd op payload s).silent.complete = .next ((s.ran (cmdRecords op payload)).present noResults) := by
  rw [emits_sendCmd op payload s s (.refl s) hq]
  rfl

end Sys2Proof.Machine
end

