-- ==== Sys2Proof/Laws/PerInstr.lean ====
section
/-! SUPPORT. What holds of every instruction as syntax, one lemma for each constructor. -/

namespace Sys2Proof.Laws

open Sys2Proof.Machine

/-- The words a channel may carry: the command words of R93, the opcodes of R108, the register addresses of R66. -/
def rowWords : Channel → List Nat
  | .host => hostWords
  | .panel => panelOpcodes.map BitVec.toNat
  | .touch => touchRegisters

/-- An instruction is encoded in its own channel, by a word of the spec's table for it. -/
def EncodesRow.Statement (i : Instr) : Prop :=
  (encode i).chan = i.channel ∧ (encode i).word.toNat ∈ rowWords i.channel

theorem EncodesRow.bTobe1 (v : BitVec 8) : EncodesRow.Statement (.bTobe1 v) :=
  ⟨rfl, (by decide : (0x0000 : BitVec 16).toNat ∈ rowWords .host)⟩

theorem EncodesRow.bTobe2 (v : BitVec 16) : EncodesRow.Statement (.bTobe2 v) :=
  ⟨rfl, (by decide : (0x0001 : BitVec 16).toNat ∈ rowWords .host)⟩

theorem EncodesRow.bTobe4 (v : BitVec 32) : EncodesRow.Statement (.bTobe4 v) :=
  ⟨rfl, (by decide : (0x0002 : BitVec 16).toNat ∈ rowWords .host)⟩

theorem EncodesRow.bTobe8 (v : BitVec 64) : EncodesRow.Statement (.bTobe8 v) :=
  ⟨rfl, (by decide : (0x0003 : BitVec 16).toNat ∈ rowWords .host)⟩

theorem EncodesRow.bTole1 (v : BitVec 8) : EncodesRow.Statement (.bTole1 v) :=
  ⟨rfl, (by decide : (0x0100 : BitVec 16).toNat ∈ rowWords .host)⟩

theorem EncodesRow.bTole2 (v : BitVec 16) : EncodesRow.Statement (.bTole2 v) :=
  ⟨rfl, (by decide : (0x0101 : BitVec 16).toNat ∈ rowWords .host)⟩

theorem EncodesRow.bTole4 (v : BitVec 32) : EncodesRow.Statement (.bTole4 v) :=
  ⟨rfl, (by decide : (0x0102 : BitVec 16).toNat ∈ rowWords .host)⟩

theorem EncodesRow.bTole8 (v : BitVec 64) : EncodesRow.Statement (.bTole8 v) :=
  ⟨rfl, (by decide : (0x0103 : BitVec 16).toNat ∈ rowWords .host)⟩

theorem EncodesRow.bWrapLe (din : List Byte) : EncodesRow.Statement (.bWrapLe din) :=
  ⟨rfl, (by decide : (0x0200 : BitVec 16).toNat ∈ rowWords .host)⟩

theorem EncodesRow.bWrapBe (din : List Byte) : EncodesRow.Statement (.bWrapBe din) :=
  ⟨rfl, (by decide : (0x0201 : BitVec 16).toNat ∈ rowWords .host)⟩

theorem EncodesRow.bRead1 : EncodesRow.Statement (.bRead1) :=
  ⟨rfl, (by decide : (0x0300 : BitVec 16).toNat ∈ rowWords .host)⟩

theorem EncodesRow.bRead2 : EncodesRow.Statement (.bRead2) :=
  ⟨rfl, (by decide : (0x0301 : BitVec 16).toNat ∈ rowWords .host)⟩

theorem EncodesRow.bRead4 : EncodesRow.Statement (.bRead4) :=
  ⟨rfl, (by decide : (0x0302 : BitVec 16).toNat ∈ rowWords .host)⟩

theorem EncodesRow.bRead8 : EncodesRow.Statement (.bRead8) :=
  ⟨rfl, (by decide : (0x0303 : BitVec 16).toNat ∈ rowWords .host)⟩

theorem EncodesRow.bWrite1 (v : BitVec 8) : EncodesRow.Statement (.bWrite1 v) :=
  ⟨rfl, (by decide : (0x0400 : BitVec 16).toNat ∈ rowWords .host)⟩

theorem EncodesRow.bWrite2 (v : BitVec 16) : EncodesRow.Statement (.bWrite2 v) :=
  ⟨rfl, (by decide : (0x0401 : BitVec 16).toNat ∈ rowWords .host)⟩

theorem EncodesRow.bWrite4 (v : BitVec 32) : EncodesRow.Statement (.bWrite4 v) :=
  ⟨rfl, (by decide : (0x0402 : BitVec 16).toNat ∈ rowWords .host)⟩

theorem EncodesRow.bWrite8 (v : BitVec 64) : EncodesRow.Statement (.bWrite8 v) :=
  ⟨rfl, (by decide : (0x0403 : BitVec 16).toNat ∈ rowWords .host)⟩

theorem EncodesRow.bSeekBeg (off : BitVec 64) : EncodesRow.Statement (.bSeekBeg off) :=
  ⟨rfl, (by decide : (0x0500 : BitVec 16).toNat ∈ rowWords .host)⟩

theorem EncodesRow.bSeekCur (off : BitVec 64) : EncodesRow.Statement (.bSeekCur off) :=
  ⟨rfl, (by decide : (0x0501 : BitVec 16).toNat ∈ rowWords .host)⟩

theorem EncodesRow.bSeekEnd (off : BitVec 64) : EncodesRow.Statement (.bSeekEnd off) :=
  ⟨rfl, (by decide : (0x0502 : BitVec 16).toNat ∈ rowWords .host)⟩

theorem EncodesRow.bTell : EncodesRow.Statement (.bTell) :=
  ⟨rfl, (by decide : (0x0600 : BitVec 16).toNat ∈ rowWords .host)⟩

theorem EncodesRow.bDump : EncodesRow.Statement (.bDump) :=
  ⟨rfl, (by decide : (0x0700 : BitVec 16).toNat ∈ rowWords .host)⟩

theorem EncodesRow.tInit : EncodesRow.Statement (.tInit) :=
  ⟨rfl, (by decide : (0x1000 : BitVec 16).toNat ∈ rowWords .host)⟩

theorem EncodesRow.tCfg : EncodesRow.Statement (.tCfg) :=
  ⟨rfl, (by decide : (0x1100 : BitVec 16).toNat ∈ rowWords .host)⟩

theorem EncodesRow.tLock : EncodesRow.Statement (.tLock) :=
  ⟨rfl, (by decide : (0x1200 : BitVec 16).toNat ∈ rowWords .host)⟩

theorem EncodesRow.tWait (timeout : BitVec 64) : EncodesRow.Statement (.tWait timeout) :=
  ⟨rfl, (by decide : (0x1300 : BitVec 16).toNat ∈ rowWords .host)⟩

theorem EncodesRow.tPoll : EncodesRow.Statement (.tPoll) :=
  ⟨rfl, (by decide : (0x1400 : BitVec 16).toNat ∈ rowWords .host)⟩

theorem EncodesRow.eInit (w h : BitVec 16) : EncodesRow.Statement (.eInit w h) :=
  ⟨rfl, (by decide : (0x2000 : BitVec 16).toNat ∈ rowWords .host)⟩

theorem EncodesRow.eSetsize (w h : BitVec 16) : EncodesRow.Statement (.eSetsize w h) :=
  ⟨rfl, (by decide : (0x2100 : BitVec 16).toNat ∈ rowWords .host)⟩

theorem EncodesRow.eGeom : EncodesRow.Statement (.eGeom) :=
  ⟨rfl, (by decide : (0x2200 : BitVec 16).toNat ∈ rowWords .host)⟩

theorem EncodesRow.eSetmodeP : EncodesRow.Statement (.eSetmodeP) :=
  ⟨rfl, (by decide : (0x2300 : BitVec 16).toNat ∈ rowWords .host)⟩

theorem EncodesRow.eSetmodeF : EncodesRow.Statement (.eSetmodeF) :=
  ⟨rfl, (by decide : (0x2301 : BitVec 16).toNat ∈ rowWords .host)⟩

theorem EncodesRow.eSetautoNone : EncodesRow.Statement (.eSetautoNone) :=
  ⟨rfl, (by decide : (0x2400 : BitVec 16).toNat ∈ rowWords .host)⟩

theorem EncodesRow.eSetautoFull : EncodesRow.Statement (.eSetautoFull) :=
  ⟨rfl, (by decide : (0x2401 : BitVec 16).toNat ∈ rowWords .host)⟩

theorem EncodesRow.eSetautoWhite : EncodesRow.Statement (.eSetautoWhite) :=
  ⟨rfl, (by decide : (0x2402 : BitVec 16).toNat ∈ rowWords .host)⟩

theorem EncodesRow.eSetmax (n : BitVec 32) : EncodesRow.Statement (.eSetmax n) :=
  ⟨rfl, (by decide : (0x2500 : BitVec 16).toNat ∈ rowWords .host)⟩

theorem EncodesRow.eClearW : EncodesRow.Statement (.eClearW) :=
  ⟨rfl, (by decide : (0x2600 : BitVec 16).toNat ∈ rowWords .host)⟩

theorem EncodesRow.eClearB : EncodesRow.Statement (.eClearB) :=
  ⟨rfl, (by decide : (0x2601 : BitVec 16).toNat ∈ rowWords .host)⟩

theorem EncodesRow.eRawfb (din : List Byte) : EncodesRow.Statement (.eRawfb din) :=
  ⟨rfl, (by decide : (0x2700 : BitVec 16).toNat ∈ rowWords .host)⟩

theorem EncodesRow.ePutbmp (px py : BitVec 32) (bw bh : BitVec 16) (din : List Byte) : EncodesRow.Statement (.ePutbmp px py bw bh din) :=
  ⟨rfl, (by decide : (0x2800 : BitVec 16).toNat ∈ rowWords .host)⟩

theorem EncodesRow.ePoweroff : EncodesRow.Statement (.ePoweroff) :=
  ⟨rfl, (by decide : (0x2900 : BitVec 16).toNat ∈ rowWords .host)⟩

theorem EncodesRow.epdDriverOutputControl : EncodesRow.Statement (.epdDriverOutputControl) :=
  ⟨rfl, (by decide : (0x01 : BitVec 16).toNat ∈ rowWords .panel)⟩

theorem EncodesRow.epdDeepSleep : EncodesRow.Statement (.epdDeepSleep) :=
  ⟨rfl, (by decide : (0x10 : BitVec 16).toNat ∈ rowWords .panel)⟩

theorem EncodesRow.epdDataInputMode : EncodesRow.Statement (.epdDataInputMode) :=
  ⟨rfl, (by decide : (0x11 : BitVec 16).toNat ∈ rowWords .panel)⟩

theorem EncodesRow.epdSoftReset : EncodesRow.Statement (.epdSoftReset) :=
  ⟨rfl, (by decide : (0x12 : BitVec 16).toNat ∈ rowWords .panel)⟩

theorem EncodesRow.epdTemperatureSource : EncodesRow.Statement (.epdTemperatureSource) :=
  ⟨rfl, (by decide : (0x18 : BitVec 16).toNat ∈ rowWords .panel)⟩

theorem EncodesRow.epdBeginUpdate : EncodesRow.Statement (.epdBeginUpdate) :=
  ⟨rfl, (by decide : (0x20 : BitVec 16).toNat ∈ rowWords .panel)⟩

theorem EncodesRow.epdDisplayUpdateControl1 : EncodesRow.Statement (.epdDisplayUpdateControl1) :=
  ⟨rfl, (by decide : (0x21 : BitVec 16).toNat ∈ rowWords .panel)⟩

theorem EncodesRow.epdDisplayUpdateControl2 (mode : RefreshMode) : EncodesRow.Statement (.epdDisplayUpdateControl2 mode) :=
  ⟨rfl, (by decide : (0x22 : BitVec 16).toNat ∈ rowWords .panel)⟩

theorem EncodesRow.epdUploadImageData (data : List Byte) : EncodesRow.Statement (.epdUploadImageData data) :=
  ⟨rfl, (by decide : (0x24 : BitVec 16).toNat ∈ rowWords .panel)⟩

theorem EncodesRow.epdBorderWaveformControl (mode : RefreshMode) : EncodesRow.Statement (.epdBorderWaveformControl mode) :=
  ⟨rfl, (by decide : (0x3c : BitVec 16).toNat ∈ rowWords .panel)⟩

theorem EncodesRow.epdDrawRegionX (x0 x1 : BitVec 16) : EncodesRow.Statement (.epdDrawRegionX x0 x1) :=
  ⟨rfl, (by decide : (0x44 : BitVec 16).toNat ∈ rowWords .panel)⟩

theorem EncodesRow.epdDrawRegionY (y0 y1 : BitVec 16) : EncodesRow.Statement (.epdDrawRegionY y0 y1) :=
  ⟨rfl, (by decide : (0x45 : BitVec 16).toNat ∈ rowWords .panel)⟩

theorem EncodesRow.epdDrawOffsetX (ox : BitVec 16) : EncodesRow.Statement (.epdDrawOffsetX ox) :=
  ⟨rfl, (by decide : (0x4e : BitVec 16).toNat ∈ rowWords .panel)⟩

theorem EncodesRow.epdDrawOffsetY (oy : BitVec 16) : EncodesRow.Statement (.epdDrawOffsetY oy) :=
  ⟨rfl, (by decide : (0x4f : BitVec 16).toNat ∈ rowWords .panel)⟩

theorem EncodesRow.touchIdRead : EncodesRow.Statement (.touchIdRead) :=
  ⟨rfl, (by decide : (0x8140 : BitVec 16).toNat ∈ rowWords .touch)⟩

theorem EncodesRow.touchConfigRead : EncodesRow.Statement (.touchConfigRead) :=
  ⟨rfl, (by decide : (0x8051 : BitVec 16).toNat ∈ rowWords .touch)⟩

theorem EncodesRow.touchStatusRead : EncodesRow.Statement (.touchStatusRead) :=
  ⟨rfl, (by decide : (0x814e : BitVec 16).toNat ∈ rowWords .touch)⟩

theorem EncodesRow.touchStatusAck : EncodesRow.Statement (.touchStatusAck) :=
  ⟨rfl, (by decide : (0x814e : BitVec 16).toNat ∈ rowWords .touch)⟩

theorem EncodesRow.touchFrameRead (count : BitVec 4) : EncodesRow.Statement (.touchFrameRead count) :=
  ⟨rfl, (by decide : (0x814e : BitVec 16).toNat ∈ rowWords .touch)⟩

theorem EncodesRow.touchLockctlWrite : EncodesRow.Statement (.touchLockctlWrite) :=
  ⟨rfl, (by decide : (0x8040 : BitVec 16).toNat ∈ rowWords .touch)⟩

theorem EncodesRow.touchLockstatusRead : EncodesRow.Statement (.touchLockstatusRead) :=
  ⟨rfl, (by decide : (0x814c : BitVec 16).toNat ∈ rowWords .touch)⟩

theorem EncodesRow.touchLockstatusAck : EncodesRow.Statement (.touchLockstatusAck) :=
  ⟨rfl, (by decide : (0x814c : BitVec 16).toNat ∈ rowWords .touch)⟩

end Sys2Proof.Laws
end

