-- ==== Sys2Proof/Laws/Scheduler.lean ====
section
/-! SUPPORT. The scheduler: the nested clear of `pre_upload` is the whole `Clear(false)`, and what each half of an
upload does by starting state (43_eink_scheduler.md R252, R253). -/

namespace Sys2Proof.Machine

/-- "The nested `pre_upload` returns at its third test" (R252). -/
theorem preUploadWith_refreshing (w : State → Res Unit) (s : State) (h : s.panel.autoRefreshing = true) :
    preUploadWith w s = .ok () s := by
  simp [preUploadWith, h]

/-- Where `pre_upload` starts the white upload, the nested procedure is the whole `Clear(false)` (R252, R258). -/
theorem nestedClear_eq_clearPanel (s : State) (h : s.panel.autoRefreshing = true) :
    nestedClear s = clearPanel false s := by
  simp only [nestedClear, clearPanel, rawFb, uploadWith, preUpload, inOrder_cons, preUploadWith_refreshing _ s h,
    bind_ok, uploadUniform]

/-- `pre_upload` with the real `Clear(false)` in place of the nested procedure: R252 as it is written. -/
theorem preUpload_eq (s : State) : preUpload s = preUploadWith (clearPanel false) s := by
  simp only [preUpload, preUploadWith]
  rw [nestedClear_eq_clearPanel _ rfl]

/-- No cycle is started: `pre_upload` does nothing (R252). -/
theorem preUpload_idle (s : State) (h : startsCycle s.panel = false ∨ s.panel.autoRefreshing = true) :
    preUpload s = .ok () s := by
  rcases h with h | h
  · simp only [preUpload, preUploadWith, budgetExhausted]
    simp only [startsCycle, Bool.and_eq_false_imp, Bool.and_eq_true, decide_eq_true_eq, decide_eq_false_iff_not] at h
    cases hm : s.panel.refreshMode
    · by_cases hp : s.panel.autoRefreshMode = .noPolicy
      · simp [hp]
      · have := h ⟨hm, hp⟩
        simp [hp, this]
    · simp
  · exact preUploadWith_refreshing _ s h

/-- A FullRefresh cycle starts with `apply_config(Full)` (R252). -/
theorem preUpload_fullRefresh (s : State) (h : startsCycle s.panel = true) (hr : s.panel.autoRefreshing = false)
    (hp : s.panel.autoRefreshMode = .fullRefresh) :
    preUpload s = applyConfig .fullMode (s.setAutoRefreshing true) := by
  simp only [startsCycle, Bool.and_eq_true, decide_eq_true_eq] at h
  simp [preUpload, preUploadWith, budgetExhausted, h.1.1, h.2, hr, hp]

/-- A ClearToWhite cycle starts with a white upload of its own (R252). -/
theorem preUpload_clearToWhite (s : State) (h : startsCycle s.panel = true) (hr : s.panel.autoRefreshing = false)
    (hp : s.panel.autoRefreshMode = .clearToWhite) :
    preUpload s = nestedClear (s.setAutoRefreshing true) := by
  simp only [startsCycle, Bool.and_eq_true, decide_eq_true_eq] at h
  simp [preUpload, preUploadWith, budgetExhausted, h.1.1, h.2, hr, hp]

/-! `post_upload` by starting state (R253), first match wins. -/

theorem postUpload_full (s : State) (h : s.panel.refreshMode = .fullMode) :
    postUpload s = refreshDisplay .fullMode s := by simp [postUpload, h]

theorem postUpload_noPolicy (s : State) (h : s.panel.refreshMode = .partialMode)
    (hp : s.panel.autoRefreshMode = .noPolicy) : postUpload s = refreshDisplay .partialMode s := by
  simp [postUpload, h, hp]

theorem postUpload_endFullRefresh (s : State) (h : s.panel.refreshMode = .partialMode)
    (hp : s.panel.autoRefreshMode = .fullRefresh) (hr : s.panel.autoRefreshing = true) :
    postUpload s = (refreshDisplay .fullMode s).bind fun _ s1 =>
      applyConfig .partialMode ((s1.setPartialCount 0).setAutoRefreshing false) := by
  simp only [postUpload, h, hp, hr, inOrder_cons, bind_ok, inOrder_nil]
  cases refreshDisplay .fullMode s with
  | ok _ s1 => simp only [bind_ok]; cases applyConfig .partialMode ((s1.setPartialCount 0).setAutoRefreshing false) <;> rfl
  | raised _ _ => rfl
  | stuck _ => rfl
  | refused _ => rfl

theorem postUpload_endClearToWhite (s : State) (h : s.panel.refreshMode = .partialMode)
    (hp : s.panel.autoRefreshMode = .clearToWhite) (hr : s.panel.autoRefreshing = true) :
    postUpload s = (refreshDisplay .partialMode s).bind fun _ s1 =>
      .ok () ((s1.setPartialCount 0).setAutoRefreshing false) := by
  simp [postUpload, h, hp, hr]

theorem postUpload_count (s : State) (h : s.panel.refreshMode = .partialMode)
    (hp : s.panel.autoRefreshMode ≠ .noPolicy) (hr : s.panel.autoRefreshing = false) :
    postUpload s = (refreshDisplay .partialMode s).bind fun _ s1 =>
      .ok () (s1.setPartialCount (s1.panel.partialRefreshCount + 1)) := by
  simp [postUpload, h, hp, hr]

/-! The operations that set the scheduler, where the unit is ready. -/

theorem setMode_ready (m : RefreshMode) (s : State) (h : s.eReady = true) :
    setMode m s = applyConfig m (if m = .fullMode then (s.setRefreshMode m).setPartialCount 0 else s.setRefreshMode m) := by
  simp only [setMode, inOrder_cons, requirePanelReady_of s h, bind_ok, inOrder_nil]
  generalize applyConfig m _ = x
  cases x <;> rfl

theorem setAuto_ready (p : RefreshPolicy) (s : State) (h : s.eReady = true) :
    setAuto p s = .ok () (s.setAutoRefreshMode p) := by
  simp [setAuto, requirePanelReady_of s h]

end Sys2Proof.Machine
end

