-- ==== Sys2Proof/Laws/Touch.lean ====
section
/-! SUPPORT. The Track Table, the order of a poll's events, the private codec, and what each shared touch operation
can do (41_touch.md). -/

namespace Sys2Proof.Machine

/-! The order of events (R186, D17). -/

theorem pick_perm {α : Type} (d : α) (l : List α) : ∀ n, n < l.length → ((pick d n l).1 :: (pick d n l).2).Perm l := by
  induction l with
  | nil => intro n h; simp at h
  | cons x l ih =>
    intro n h
    cases n with
    | zero => exact .refl _
    | succ n => exact (List.Perm.swap _ _ _).trans ((ih n (by simpa using h)).cons x)

theorem pick_length {α : Type} (d : α) (l : List α) (n : Nat) (h : n < l.length) :
    (pick d n l).2.length + 1 = l.length := by
  simpa using (pick_perm d l n h).length_eq

/-- Whatever the choice code, arranging gives the same elements. -/
theorem arrangeN_perm {α : Type} : ∀ (n : Nat) (code : List Nat) (l : List α), (arrangeN n code l).Perm l
  | 0, _, _ => .refl _
  | _ + 1, _, [] => .refl _
  | _ + 1, _, [_] => .refl _
  | n + 1, code, x :: y :: l =>
    ((arrangeN_perm n code.tail _).cons _).trans
      (pick_perm x (x :: y :: l) _ (Nat.mod_lt _ (by simp)))

theorem arrange_perm {α : Type} (code : List Nat) (l : List α) : (arrange code l).Perm l := arrangeN_perm _ _ _

/-! The Track Table (R26). -/

theorem tableFind_tableSet (i j : BitVec 8) (e : TouchEvent) (t : List (BitVec 8 × TouchEvent)) :
    tableFind j (tableSet i e t) = if i = j then some e else tableFind j t := by
  induction t with
  | nil => rfl
  | cons p t ih =>
    obtain ⟨k, d⟩ := p
    simp only [tableSet]
    split
    · rfl
    · split
      · rename_i h; subst h; by_cases h : k = j <;> simp [tableFind, h]
      · simp only [tableFind, ih]
        by_cases h1 : k = j <;> by_cases h2 : i = j <;> simp_all

theorem mem_tableIds_tableSet (i j : BitVec 8) (e : TouchEvent) (t : List (BitVec 8 × TouchEvent)) :
    j ∈ tableIds (tableSet i e t) ↔ j = i ∨ j ∈ tableIds t := by
  induction t with
  | nil => simp [tableSet, tableIds]
  | cons p t ih =>
    obtain ⟨k, d⟩ := p
    simp only [tableSet]
    split
    · simp [tableIds]
    · split
      · rename_i h; subst h; simp [tableIds]
      · simp only [tableIds, List.map_cons, List.mem_cons] at ih ⊢
        rw [ih]; tauto

/-- Setting an entry keeps the ids ascending. -/
theorem tableSet_ascending (i : BitVec 8) (e : TouchEvent) (t : List (BitVec 8 × TouchEvent))
    (h : (tableIds t).Pairwise fun a b => a.toNat < b.toNat) :
    (tableIds (tableSet i e t)).Pairwise fun a b => a.toNat < b.toNat := by
  induction t with
  | nil => simp [tableSet, tableIds]
  | cons p t ih =>
    obtain ⟨k, d⟩ := p
    simp only [tableIds, List.map_cons, List.pairwise_cons] at h
    simp only [tableSet]
    split
    · rename_i hlt
      simp only [tableIds, List.map_cons, List.pairwise_cons, List.mem_cons]
      refine ⟨?_, h⟩
      rintro a (rfl | ha)
      · exact hlt
      · exact hlt.trans (h.1 a ha)
    · split
      · rename_i h1 h2
        subst h2
        simpa [tableIds] using h
      · rename_i h1 h2
        have h3 := ih h.2
        have hne : k.toNat ≠ i.toNat := fun hc => h2 (BitVec.eq_of_toNat_eq hc)
        show List.Pairwise _ (k :: tableIds (tableSet i e t))
        refine List.pairwise_cons.mpr ⟨?_, h3⟩
        intro a ha
        rcases (mem_tableIds_tableSet i a e t).mp ha with rfl | ha
        · omega
        · exact h.1 a ha

/-- An entry is found exactly under an id of the table. -/
theorem tableFind_isSome (i : BitVec 8) (t : List (BitVec 8 × TouchEvent)) :
    (tableFind i t).isSome = true ↔ i ∈ tableIds t := by
  induction t with
  | nil => simp [tableFind, tableIds]
  | cons p t ih =>
    obtain ⟨k, d⟩ := p
    simp only [tableFind, tableIds, List.map_cons, List.mem_cons]
    by_cases h : k = i
    · simp [h]
    · simp only [h, if_false, ih, tableIds]
      constructor
      · exact .inr
      · rintro (rfl | h') <;> [exact absurd rfl h; exact h']

theorem tableFind_mem (i : BitVec 8) (e : TouchEvent) (t : List (BitVec 8 × TouchEvent))
    (h : tableFind i t = some e) : (i, e) ∈ t := by
  induction t with
  | nil => simp [tableFind] at h
  | cons p t ih =>
    obtain ⟨k, d⟩ := p
    simp only [tableFind] at h
    split at h
    · rename_i hk; cases h; subst hk; simp
    · exact List.mem_cons_of_mem _ (ih h)

/-- What classifying one record does to the table: its id is stored, every other id is as before (R183 to R185). -/
theorem classifyRecord_find (r : TouchRecord) (acc : List (BitVec 8 × TouchEvent) × List (BitVec 8)) (j : BitVec 8)
    (h : j ≠ r.touchId) : tableFind j (classifyRecord r acc).1 = tableFind j acc.1 := by
  unfold classifyRecord
  have hne : ¬ r.touchId = j := fun hc => h hc.symm
  split
  · split
    · simp [tableFind_tableSet, hne]
    · rfl
  · simp [tableFind_tableSet, hne]

/-! The private codec (R171). -/

theorem takeField_eq_some {n v : Nat} {s rest : List Byte} :
    takeField n s = some (v, rest) ↔ n ≤ s.length ∧ v = valLE (s.take n) ∧ rest = s.drop n := by
  unfold takeField
  split
  · simp; omega
  · simp [eq_comm]; omega

theorem takeRecords_length (k : Nat) : ∀ s rs, takeRecords k s = some rs → rs.length = k := by
  induction k with
  | zero => intro s rs h; simp [takeRecords] at h; simp [← h]
  | succ k ih =>
    intro s rs h
    simp only [takeRecords, Option.bind_eq_some_iff] at h
    obtain ⟨p, -, rs', h2, h3⟩ := h
    cases h3
    simp [ih _ _ h2]

/-- A parsed frame has as many records as its count (R182). -/
theorem parseFrame_length {k : Nat} {f : List Byte} {rs : List TouchRecord} (h : parseFrame k f = some rs) :
    rs.length = k := by
  simp only [parseFrame, Option.bind_eq_some_iff] at h
  obtain ⟨p, -, h⟩ := h
  exact takeRecords_length k _ _ h

/-! The shared operations. -/

/-- `ResetSequence()` cannot fail: five records, and an empty table (R172). -/
theorem touchResetSequence_eq (s : State) :
    touchResetSequence s =
      .ok () { s with trace := s.trace ++ touchResetRecords s.par, touch := { s.touch with table := [] } } := by
  simp [touchResetSequence, lineSet, pause, State.emit, State.setTable, touchResetRecords]

/-- Where a touch piece ends: BBC, ERS, the request port and the parameters are untouched. -/
def TouchOnly (s s' : State) : Prop :=
  ∃ tu rd tr an d, s' = { s with touch := tu, tReady := rd, trace := tr, answers := an, drawn := d }

theorem CallsOnly.touchOnly {s s' : State} (h : CallsOnly s s') : TouchOnly s s' := by
  obtain ⟨tr, an, d, rfl⟩ := h
  exact ⟨s.touch, s.tReady, tr, an, d, rfl⟩

theorem TouchOnly.trans {a b c : State} (h1 : TouchOnly a b) (h2 : TouchOnly b c) : TouchOnly a c := by
  obtain ⟨_, _, _, _, _, rfl⟩ := h1
  obtain ⟨tu, rd, tr, an, d, rfl⟩ := h2
  exact ⟨tu, rd, tr, an, d, rfl⟩

/-- What a touch piece leaves alone. -/
theorem TouchOnly.same {s s' : State} (h : TouchOnly s s') :
    s'.buf = s.buf ∧ s'.cur = s.cur ∧ s'.bend = s.bend ∧ s'.panel = s.panel ∧ s'.eReady = s.eReady ∧
      s'.requests = s.requests ∧ s'.par = s.par := by
  obtain ⟨_, _, _, _, _, rfl⟩ := h
  simp

/-- `ReleaseAll()`: Release events of every tracked id in some order, an empty table (R181). -/
theorem releaseAll_eq (s : State) :
    ∃ evs, evs.Perm (s.touch.table.map fun p => released p.2) ∧
      releaseAll s =
        .ok evs ((s.setTable []).afterDraw { s.answers with eventOrder := s.answers.eventOrder.tail }) :=
  ⟨_, arrange_perm _ _, rfl⟩

/-- `LockedPoll()` goes on, or raises with the unit's table and lock as they were (R177). -/
theorem lockedPoll_ends (s : State) :
    (lockedPoll s).ends (TouchOnly s) fun e s' =>
      (e = .transportError .touchUnit ∨ e = .outOfRange) ∧ CallsOnly s s' := by
  refine ends_bind (P := CallsOnly s) (regReadByte_ends _ s) fun status s1 h1 => ?_
  split
  · rw [touchResetSequence_eq]
    exact h1.touchOnly.trans ⟨_, _, _, _, _, rfl⟩
  · refine ends_bind (P := CallsOnly s) (ends_mono (regWrite_ends _ _ s1) (fun _ h => h1.trans h)
      fun e s' h => ⟨.inl h.1, h1.trans h.2⟩) fun _ s2 h2 => h2.touchOnly

/-- Steps 6 and 7 go on, or raise with the table as it was (R182, "parsing precedes classification"). -/
theorem framePoll_ends (count : Nat) (s : State) :
    (framePoll count s).ends (TouchOnly s) fun e s' =>
      (e = .transportError .touchUnit ∨ e = .outOfRange) ∧ CallsOnly s s' := by
  refine ends_bind (P := CallsOnly s) (ends_mono (regRead_ends _ _ s) (fun _ h => h) fun e s' h => ⟨.inl h.1, h.2⟩)
    fun frame s1 h1 => ?_
  refine ends_bind (P := CallsOnly s) (ends_mono (fieldOr_ends _ s1) ?_ ?_) fun rs s2 h2 => ?_
  · rintro s2 ⟨rfl, -⟩; exact h1
  · rintro e s2 ⟨rfl, rfl, -⟩; exact ⟨.inr rfl, h1⟩
  · split
    · exact h2.touchOnly.trans ⟨_, _, _, _, _, rfl⟩
    · trivial

/-- Steps 3 to 7 (R178 to R186). -/
theorem unlockedPoll_ends (s : State) :
    (unlockedPoll s).ends (TouchOnly s) fun e s' =>
      (e = .transportError .touchUnit ∨ e = .outOfRange) ∧ CallsOnly s s' := by
  refine ends_bind (P := CallsOnly s) (regReadByte_ends _ s) fun status s1 h1 => ?_
  split
  · exact h1.touchOnly
  · refine ends_bind (P := CallsOnly s) (ends_mono (regWrite_ends _ _ s1) (fun _ h => h1.trans h)
      fun e s' h => ⟨.inl h.1, h1.trans h.2⟩) fun _ s2 h2 => ?_
    dsimp only
    split
    · exact h2.touchOnly.trans ⟨_, _, _, _, _, rfl⟩
    · exact ends_mono (framePoll_ends _ s2) (fun _ h => h2.touchOnly.trans h) fun e s' h => ⟨h.1, h2.trans h.2⟩

/-- `T.POLL` (R176): where it ends, only TES and the environment have moved, and an error left the table and the lock
as they were. -/
theorem pollTouch_ends (s : State) :
    (pollTouch s).ends (TouchOnly s) fun e s' =>
      (e = .notReady ∨ e = .transportError .touchUnit ∨ e = .outOfRange) ∧ CallsOnly s s' := by
  unfold pollTouch requireTouchReady
  split
  · simp only [bind_ok]
    refine ends_bind (P := CallsOnly s) (touchWait_ends _ s _) fun pending s1 h1 => ?_
    split
    · exact h1.touchOnly
    · split
      · exact ends_mono (lockedPoll_ends s1) (fun _ h => h1.touchOnly.trans h)
          fun e s' h => ⟨.inr h.1, h1.trans h.2⟩
      · exact ends_mono (unlockedPoll_ends s1) (fun _ h => h1.touchOnly.trans h)
          fun e s' h => ⟨.inr h.1, h1.trans h.2⟩
  · exact ⟨.inl rfl, .refl s⟩

/-- `T.LOCK` (R175): locked with an empty table, or an error with both as they were. -/
theorem lockTouch_ends (s : State) :
    (lockTouch s).ends (fun s' => TouchOnly s s' ∧ s'.touch.locked = true ∧ s'.touch.table = []) fun e s' =>
      (e = .notReady ∨ e = .transportError .touchUnit) ∧ CallsOnly s s' := by
  unfold lockTouch requireTouchReady
  split
  · simp only [bind_ok]
    refine ends_bind (P := CallsOnly s) (ends_mono (regWrite_ends _ _ s) (fun _ h => h) fun e s' h => ⟨.inr h.1, h.2⟩)
      fun _ s1 h1 => ?_
    exact ⟨h1.touchOnly.trans ⟨_, _, _, _, _, rfl⟩, rfl, rfl⟩
  · exact ⟨.inl rfl, .refl s⟩

/-- The Config answer goes into `cfg`, or it runs out; table, lock and flag are as they were (R173). -/
theorem readConfig_ends (answer : List Byte) (s : State) :
    (readConfig answer s).ends (fun s' => ∃ c, s' = s.setCfg c) fun e s' =>
      e = .outOfRange ∧ ∃ c, s' = s.setCfg c := by
  unfold readConfig
  have base : s = s.setCfg s.touch.cfg := rfl
  refine ends_bind (P := fun s' => s' = s) (ends_mono (fieldOr_ends _ s) (fun _ h => h.1)
    fun e s' h => ⟨h.1, s.touch.cfg, h.2.1.trans base⟩) fun mx s1 h1 => ?_
  subst h1
  refine ends_bind (P := fun s' => ∃ c, s' = s1.setCfg c) (ends_mono (fieldOr_ends _ _)
    (fun _ h => ⟨_, h.1⟩) fun e s' h => ⟨h.1, _, h.2.1⟩) fun my s2 h2 => ?_
  obtain ⟨c, rfl⟩ := h2
  refine ends_bind (P := fun s' => ∃ c, s' = s1.setCfg c) (ends_mono (fieldOr_ends _ _)
    (fun _ h => ⟨_, h.1⟩) fun e s' h => ⟨h.1, _, h.2.1⟩) fun mp s3 h3 => ?_
  obtain ⟨c, rfl⟩ := h3
  exact ⟨_, rfl⟩

end Sys2Proof.Machine
end

