-- ==== Sys2Proof/Tests/Slice0.lean ====
section
/-! SUPPORT. The model's own tests. Words are written out from 30_encoding.md R93, R100 and R108; expected results are
those of 95_test_vectors.md where a vector is named. -/

namespace Sys2Proof.Tests

open Sys2Proof.Machine

/-! WellFormed refuses an ill-formed term of each check, and admits the boundary values. -/

theorem test_wellFormedFrameCountZero : (Instr.touchFrameRead 0).wellFormed = false := by decide

theorem test_wellFormedFrameCountSix : (Instr.touchFrameRead 6).wellFormed = false := by decide

theorem test_wellFormedFrameCountBounds :
    (Instr.touchFrameRead 1).wellFormed = true ∧ (Instr.touchFrameRead 5).wellFormed = true := by decide

/-! Decoding: one word for each constructor, bit by bit, with operand ports of different digits. -/

/-- A word with its ports decodes to an instruction. -/
abbrev decodes (c : Channel) (w : BitVec 16) (a b : BitVec 64) (din : List Byte) (i : Instr) : Prop :=
  decode ⟨c, w, a, b, din⟩ = .ok i

/-- A word with its ports is rejected under a name. -/
abbrev rejects (c : Channel) (w : BitVec 16) (a : BitVec 64) (e : DecodeError) : Prop :=
  decode ⟨c, w, a, 0, []⟩ = .error e

theorem test_decodeBTobe1 : decodes .host 0b0000000000000000 0x8877665544332211 0 [] (.bTobe1 0x11) := by decide

theorem test_decodeBTobe2 : decodes .host 0b0000000000000001 0x8877665544332211 0 [] (.bTobe2 0x2211) := by decide

theorem test_decodeBTobe4 : decodes .host 0b0000000000000010 0x8877665544332211 0 [] (.bTobe4 0x44332211) := by decide

theorem test_decodeBTobe8 :
    decodes .host 0b0000000000000011 0x8877665544332211 0 [] (.bTobe8 0x8877665544332211) := by decide

theorem test_decodeBTole1 : decodes .host 0b0000000100000000 0x8877665544332211 0 [] (.bTole1 0x11) := by decide

theorem test_decodeBTole2 : decodes .host 0b0000000100000001 0x8877665544332211 0 [] (.bTole2 0x2211) := by decide

theorem test_decodeBTole4 : decodes .host 0b0000000100000010 0x8877665544332211 0 [] (.bTole4 0x44332211) := by decide

theorem test_decodeBTole8 :
    decodes .host 0b0000000100000011 0x8877665544332211 0 [] (.bTole8 0x8877665544332211) := by decide

theorem test_decodeBWrapLe :
    decodes .host 0b0000001000000000 0x8877665544332211 0 [0x34, 0x12] (.bWrapLe [0x34, 0x12]) := by decide

theorem test_decodeBWrapBe :
    decodes .host 0b0000001000000001 0x8877665544332211 0 [0x34, 0x12] (.bWrapBe [0x34, 0x12]) := by decide

theorem test_decodeBRead1 : decodes .host 0b0000001100000000 0 0 [] .bRead1 := by decide

theorem test_decodeBRead2 : decodes .host 0b0000001100000001 0 0 [] .bRead2 := by decide

theorem test_decodeBRead4 : decodes .host 0b0000001100000010 0 0 [] .bRead4 := by decide

theorem test_decodeBRead8 : decodes .host 0b0000001100000011 0 0 [] .bRead8 := by decide

theorem test_decodeBWrite1 : decodes .host 0b0000010000000000 0x8877665544332211 0 [] (.bWrite1 0x11) := by decide

theorem test_decodeBWrite2 : decodes .host 0b0000010000000001 0x8877665544332211 0 [] (.bWrite2 0x2211) := by decide

theorem test_decodeBWrite4 : decodes .host 0b0000010000000010 0x8877665544332211 0 [] (.bWrite4 0x44332211) := by decide

theorem test_decodeBWrite8 :
    decodes .host 0b0000010000000011 0x8877665544332211 0 [] (.bWrite8 0x8877665544332211) := by decide

theorem test_decodeBSeekBeg : decodes .host 0b0000010100000000 2 0 [] (.bSeekBeg 2) := by decide

theorem test_decodeBSeekCur : decodes .host 0b0000010100000001 5 0 [] (.bSeekCur 5) := by decide

theorem test_decodeBSeekEnd :
    decodes .host 0b0000010100000010 0xfffffffffffffffe 0 [] (.bSeekEnd 0xfffffffffffffffe) := by decide

theorem test_decodeBTell : decodes .host 0b0000011000000000 0 0 [] .bTell := by decide

theorem test_decodeBDump : decodes .host 0b0000011100000000 0 0 [] .bDump := by decide

theorem test_decodeTInit : decodes .host 0b0001000000000000 0 0 [] .tInit := by decide

theorem test_decodeTCfg : decodes .host 0b0001000100000000 0 0 [] .tCfg := by decide

theorem test_decodeTLock : decodes .host 0b0001001000000000 0 0 [] .tLock := by decide

theorem test_decodeTWait : decodes .host 0b0001001100000000 0x3e8 0 [] (.tWait 1000) := by decide

theorem test_decodeTPoll : decodes .host 0b0001010000000000 0 0 [] .tPoll := by decide

theorem test_decodeEInit : decodes .host 0b0010000000000000 0x019200f2 0 [] (.eInit 242 402) := by decide

theorem test_decodeESetsize : decodes .host 0b0010000100000000 0x00fa007a 0 [] (.eSetsize 122 250) := by decide

theorem test_decodeEGeom : decodes .host 0b0010001000000000 0 0 [] .eGeom := by decide

theorem test_decodeESetmodeP : decodes .host 0b0010001100000000 0 0 [] .eSetmodeP := by decide

theorem test_decodeESetmodeF : decodes .host 0b0010001100000001 0 0 [] .eSetmodeF := by decide

theorem test_decodeESetautoNone : decodes .host 0b0010010000000000 0 0 [] .eSetautoNone := by decide

theorem test_decodeESetautoFull : decodes .host 0b0010010000000001 0 0 [] .eSetautoFull := by decide

theorem test_decodeESetautoWhite : decodes .host 0b0010010000000010 0 0 [] .eSetautoWhite := by decide

theorem test_decodeESetmax : decodes .host 0b0010010100000000 0xffffffff00000002 0 [] (.eSetmax 2) := by decide

theorem test_decodeEClearW : decodes .host 0b0010011000000000 0 0 [] .eClearW := by decide

theorem test_decodeEClearB : decodes .host 0b0010011000000001 0 0 [] .eClearB := by decide

theorem test_decodeERawfb : decodes .host 0b0010011100000000 0 0 [0x11, 0x22] (.eRawfb [0x11, 0x22]) := by decide

theorem test_decodeEPutbmp :
    decodes .host 0b0010100000000000 0xfffffffffffffffd 0x00030008 [0xff, 0xa5, 0x3c] (.ePutbmp 0xfffffffd 0xffffffff 8 3 [0xff, 0xa5, 0x3c]) := by decide

theorem test_decodeEPoweroff : decodes .host 0b0010100100000000 0 0 [] .ePoweroff := by decide

theorem test_decodeEpdDriverOutputControl : decodes .panel 0b00000001 0 0 [] .epdDriverOutputControl := by decide

theorem test_decodeEpdDeepSleep : decodes .panel 0b00010000 0 0 [] .epdDeepSleep := by decide

theorem test_decodeEpdDataInputMode : decodes .panel 0b00010001 0 0 [] .epdDataInputMode := by decide

theorem test_decodeEpdSoftReset : decodes .panel 0b00010010 0 0 [] .epdSoftReset := by decide

theorem test_decodeEpdTemperatureSource : decodes .panel 0b00011000 0 0 [] .epdTemperatureSource := by decide

theorem test_decodeEpdBeginUpdate : decodes .panel 0b00100000 0 0 [] .epdBeginUpdate := by decide

theorem test_decodeEpdDisplayUpdateControl1 : decodes .panel 0b00100001 0 0 [] .epdDisplayUpdateControl1 := by decide

theorem test_decodeEpdDisplayUpdateControl2 :
    decodes .panel 0b00100010 1 0 [] (.epdDisplayUpdateControl2 .fullMode) := by decide

theorem test_decodeEpdUploadImageData : decodes .panel 0b00100100 0 0 [0xff] (.epdUploadImageData [0xff]) := by decide

theorem test_decodeEpdBorderWaveformControl :
    decodes .panel 0b00111100 0 0 [] (.epdBorderWaveformControl .partialMode) := by decide

theorem test_decodeEpdDrawRegionX : decodes .panel 0b01000100 0x00f10000 0 [] (.epdDrawRegionX 0 241) := by decide

theorem test_decodeEpdDrawRegionY : decodes .panel 0b01000101 0x01910000 0 [] (.epdDrawRegionY 0 401) := by decide

theorem test_decodeEpdDrawOffsetX : decodes .panel 0b01001110 0xf0 0 [] (.epdDrawOffsetX 240) := by decide

theorem test_decodeEpdDrawOffsetY : decodes .panel 0b01001111 0x192 0 [] (.epdDrawOffsetY 402) := by decide

theorem test_decodeTouchIdRead : decodes .touch 0b1000000101000000 0 0 [] .touchIdRead := by decide

theorem test_decodeTouchConfigRead : decodes .touch 0b1000000001010001 0 0 [] .touchConfigRead := by decide

theorem test_decodeTouchStatusRead : decodes .touch 0b1000000101001110 0 0 [] .touchStatusRead := by decide

theorem test_decodeTouchStatusAck : decodes .touch 0b1000000101001110 0x01 0 [] .touchStatusAck := by decide

theorem test_decodeTouchFrameRead : decodes .touch 0b1000000101001110 0x50 0 [] (.touchFrameRead 5) := by decide

theorem test_decodeTouchLockctlWrite : decodes .touch 0b1000000001000000 0 0 [] .touchLockctlWrite := by decide

theorem test_decodeTouchLockstatusRead : decodes .touch 0b1000000101001100 0 0 [] .touchLockstatusRead := by decide

theorem test_decodeTouchLockstatusAck : decodes .touch 0b1000000101001100 0x01 0 [] .touchLockstatusAck := by decide

theorem test_rejectReservedUnit : rejects .host 0b0011000000000000 0 .reservedUnit := by decide

theorem test_rejectReservedOp :
    rejects .host 0b0000100000000000 0 .reservedOp ∧ rejects .host 0b0001010100000000 0 .reservedOp ∧
      rejects .host 0b0010101000000000 0 .reservedOp := by decide

theorem test_rejectStrayModifier :
    rejects .host 0b0000001100000100 0 .strayModifier ∧ rejects .host 0b0000011000010000 0 .strayModifier := by decide

theorem test_rejectReservedOrigin : rejects .host 0b0000010100000011 0 .reservedOrigin := by decide

theorem test_rejectReservedPolicy : rejects .host 0b0010010000000011 0 .reservedPolicy := by decide

theorem test_rejectUnknownOpcode : rejects .panel 0b00000010 0 .unknownOpcode := by decide

theorem test_rejectUnknownRegister : rejects .touch 0b1000000101001101 0 .unknownRegister := by decide

theorem test_rejectBadCount :
    rejects .touch 0b1000000101001110 0x60 .badCount ∧ rejects .touch 0b1000000101001110 0xf0 .badCount := by decide

/-- A first coordinate above the last, and bits of `A` that the access does not name (R108, R92). -/
theorem test_decodeEveryOperand :
    decodes .panel 0b01000100 0x00000001 0 [] (.epdDrawRegionX 1 0) ∧
      decodes .touch 0b1000000101000000 0xff 0 [] .touchIdRead ∧
      decodes .touch 0b1000000101001110 0xf1 0 [] .touchStatusAck := by decide

/-! Decoding and encoding of the table's own numbering. -/

theorem test_tableWordChannels :
    decodeTableWord 8 0x24 = some (.epdUploadImageData []) ∧ decodeTableWord 16 0x8140 = some .touchIdRead ∧
      decodeTableWord 16 0x2700 = some (.eRawfb []) := by decide

/-! Single steps. Each expected result is that of the vector of 95_test_vectors.md it names. -/

/-- The next state of an outcome, if it is one. -/
def ended (o : Host.Outcome State Fault Refusal) : Option State :=
  match o with
  | .next t => some t
  | .fault _ | .refused _ => none

/-- An outcome is a next state that shows a value. -/
abbrev shows {α : Type} (o : Host.Outcome State Fault Refusal) (view : State → α) (v : α) : Prop :=
  (ended o).map view = some v

/-- A state with a wrapped buffer. -/
def bufState (e : Endian) (bs : List Byte) (cur : BitVec 64) : State :=
  { State.reset with buf := Memory.ofBytes bs, cur := cur, bend := e }

/-- B3. -/
theorem test_readBig :
    shows (exec .bRead2 (bufState .big [0x34, 0x12] 0)) (fun t => (t.st, t.r, t.cur)) (0, 0x3412, 2) := by decide

/-- B8: the failing read leaves the cursor before the odd byte. -/
theorem test_readUnderrun :
    shows (exec .bRead2 (bufState .little [0x09] 0)) (fun t => (t.st, t.cur, t.buf.toBytes)) (3, 0, [0x09]) := by
  decide

/-- B6: a straddling write keeps two bytes, overwrites one and appends three. -/
theorem test_writeStraddles :
    shows (exec (.bWrite4 0xdeadbeef) (bufState .little [1, 2, 3] 2)) (fun t => (t.st, t.buf.toBytes, t.cur))
      (0, [0x01, 0x02, 0xef, 0xbe, 0xad, 0xde], 6) := by decide

/-- B9. -/
theorem test_writeBig :
    shows (exec (.bWrite8 0x0102030405060708) (bufState .big [] 0)) (fun t => t.buf.toBytes)
      [0x01, 0x02, 0x03, 0x04, 0x05, 0x06, 0x07, 0x08] := by decide

/-- B26: a write beyond `BUF_MAX` changes nothing. -/
theorem test_writeCapacity :
    shows (exec (.bWrite2 0xffff)
        { bufState .little [1, 2, 3] 3 with par := { Params.defaults with bufMax := 4 } })
      (fun t => (t.st, t.buf.toBytes, t.cur)) (4, [1, 2, 3], 3) := by decide

/-- B13: a negative offset from the end. -/
theorem test_seekEnd :
    shows (exec (.bSeekEnd 0xfffffffffffffffe) (bufState .little [1, 2, 3, 4, 5, 6] 2)) (fun t => (t.st, t.cur))
      (0, 4) := by decide

/-- B12: a target beyond the end. -/
theorem test_seekBeyond :
    shows (exec (.bSeekCur 5) (bufState .little [1, 2, 3, 4, 5, 6] 2)) (fun t => (t.st, t.cur)) (3, 2) := by decide

/-- B19, B20. -/
theorem test_freshBytes :
    shows (exec (.bTole4 0x11223344) .reset) State.dout [0x44, 0x33, 0x22, 0x11] ∧
      shows (step (State.reset.presentRequest ⟨.host, 0x0000, 0x1ff, 0, []⟩)) State.dout [0xff] := by decide

/-- The environment's answers of one poll. -/
def pollAnswers (waits : List WaitAnswer) (reads : List (Option (List Byte))) (writes : List Bool) : Answers :=
  { State.reset.answers with touchWait := waits, regRead := reads, regWrite := writes }

/-- A ready TES with a table. -/
def touchState (table : List (BitVec 8 × TouchEvent)) (locked : Bool) (a : Answers) : State :=
  { State.reset with tReady := true, touch := ⟨table, ⟨242, 402, 5⟩, locked⟩, answers := a }

/-- T0 and T.CFG after it. -/
theorem test_touchInit :
    shows (exec .tInit { State.reset with
        answers := pollAnswers [] [some [0x31, 0x31, 0x35, 0x38], some [0xf2, 0x00, 0x92, 0x01, 0x05]] [] })
      (fun t => (t.st, t.tReady, t.touch, t.trace.length)) (0, true, ⟨[], ⟨242, 402, 5⟩, false⟩, 7) := by decide

/-- T18: a wrong ID; the Config register is not read. -/
theorem test_touchInitMismatch :
    shows (exec .tInit { State.reset with answers := pollAnswers [] [some [0x31, 0x31, 0x35, 0x39]] [] })
      (fun t => (t.st, t.tReady, t.trace.length)) (2, false, 6) := by decide

/-- T0: the packed configuration. -/
theorem test_touchConfig :
    shows (exec .tCfg (touchState [] false State.reset.answers)) (fun t => (t.st, t.r)) (0, 0x00000005019200f2) := by
  decide

/-- T1: a first touch. -/
theorem test_pollTouch :
    shows (exec .tPoll (touchState [] false
        (pollAnswers [.fired] [some [0x01], some [0x01, 0x03, 0x0a, 0x00, 0x14, 0x00, 0x05, 0x00, 0x00]] [true])))
      (fun t => (t.r, t.dout, t.touch.table))
      (1, [0x01, 0x03, 0x0a, 0x00, 0x14, 0x00, 0x05, 0x00], [(3, ⟨.touch, 3, 10, 20, 5⟩)]) := by decide

/-- T6: one release, one new touch, one id unchanged; the number of events and the table are shown. -/
theorem test_pollReleaseAndTouch :
    shows (exec .tPoll (touchState
        [(1, ⟨.touch, 1, 100, 200, 30⟩), (7, ⟨.drag, 7, 0x1235, 0xabcd, 0xffff⟩)] false
        { pollAnswers [.fired] [some [0x02], some [0x02, 0x07, 0x35, 0x12, 0xcd, 0xab, 0xff, 0xff, 0x00,
          0x09, 0x01, 0x00, 0x02, 0x00, 0x03, 0x00, 0x00]] [true] with eventOrder := [[]] }))
      (fun t => (t.r, t.touch.table))
      (2, [(7, ⟨.drag, 7, 0x1235, 0xabcd, 0xffff⟩), (9, ⟨.touch, 9, 1, 2, 3⟩)]) := by decide

/-- T13: tracked ids are discarded, not released. -/
theorem test_lockDiscards :
    shows (exec .tLock (touchState [(4, ⟨.touch, 4, 50, 60, 7⟩)] false (pollAnswers [] [] [true])))
      (fun t => (t.st, t.touch.table, t.touch.locked)) (0, [], true) := by decide

/-- T11: a timed-out wait is no error. -/
theorem test_waitExpires :
    shows (exec (.tWait 1000) (touchState [] false (pollAnswers [.expired] [] []))) (fun t => (t.st, t.r)) (0, 0) := by
  decide

/-- A wait with the timeout unset that is never answered never ends (R187). -/
theorem test_waitHangs :
    exec (.tWait 0xffffffffffffffff) (touchState [] false (pollAnswers [.never] [] [])) =
      .fault .waitNeverAnswered := by rfl

/-- Parameters with every OPEN one given, for a panel of 8 by 1 pixels and the 242 by 402 panel of the vectors. -/
def knownPar : Params :=
  { Params.defaults with
    epdHwResetSeq := some [.setLine true, .pause 7]
    epdDimArg := some 0x03
    epdDocPayload := [(8, 1, [0xcc]), (242, 402, [0xaa, 0xbb])]
    epdDefaultMaxPartial := some 9 }

/-- A ready ERS whose bus does not fail and whose panel is never busy. -/
def panelState (p : PanelUnit) : State :=
  { State.reset with
    par := knownPar, panel := p, eReady := true
    answers :=
      { State.reset.answers with spiWrite := List.replicate 60 true, busyLevel := List.replicate 9 false } }

/-- Partial mode, no policy, 242 by 402. -/
def bigPanel : PanelUnit := ⟨.partialMode, .noPolicy, 0, 0, false, 242, 402⟩

/-- A panel of 8 by 1 pixels by mode, policy, counter and budget. -/
def smallPanel (m : RefreshMode) (p : RefreshPolicy) (count budget : BitVec 32) : PanelUnit :=
  ⟨m, p, count, budget, false, 8, 1⟩

/-- The bytes a trace sent, as 95_test_vectors.md writes them: `false` for (c), `true` for (d). -/
abbrev sent (t : State) : List (Bool × Byte) := taggedBytes false t.trace

/-- E8: a bitmap cropped on two sides. -/
theorem test_putBitmapCropped :
    shows (exec (.ePutbmp 0xfffffffd 0xffffffff 8 3 [0xff, 0xa5, 0x3c]) (panelState bigPanel)) sent
      [(false, 0x44), (true, 0x00), (true, 0x00), (false, 0x45), (true, 0x00), (true, 0x00), (true, 0x01),
       (true, 0x00), (false, 0x4e), (true, 0x1e), (false, 0x4f), (true, 0x92), (true, 0x01), (false, 0x24),
       (true, 0x28), (false, 0x4e), (true, 0x1e), (false, 0x4f), (true, 0x91), (true, 0x01), (false, 0x24),
       (true, 0xe0), (false, 0x22), (true, 0xff), (false, 0x20)] := by decide

/-- E6: an empty overlap still refreshes. -/
theorem test_putBitmapOutside :
    shows (exec (.ePutbmp 300 300 8 8 (List.replicate 8 0)) (panelState bigPanel)) sent
      [(false, 0x22), (true, 0xff), (false, 0x20)] := by decide

/-- E5: an empty framebuffer sends the opcode only. -/
theorem test_rawFramebufferEmpty :
    shows (exec (.eRawfb []) (panelState bigPanel)) sent
      [(false, 0x44), (true, 0x00), (true, 0x1e), (false, 0x45), (true, 0x00), (true, 0x00), (true, 0x91),
       (true, 0x01), (false, 0x4e), (true, 0x00), (false, 0x4f), (true, 0x00), (true, 0x00), (false, 0x24),
       (false, 0x22), (true, 0xff), (false, 0x20)] := by decide

/-- X9: a ClearToWhite cycle, on a panel of one byte. -/
theorem test_clearToWhiteCycle :
    shows (exec .eClearB (panelState (smallPanel .partialMode .clearToWhite 1 1)))
      (fun t => ((sent t).filter fun x => x.2 ∈ [0x24, 0x22, 0x20], t.panel.partialRefreshCount))
      ([(false, 0x24), (false, 0x22), (false, 0x20), (false, 0x24), (false, 0x22), (false, 0x20)], 1) := by decide

/-- X5: a FullRefresh cycle ends with the counter at 0 and the mode still Partial. -/
theorem test_fullRefreshCycle :
    shows (exec .eClearW (panelState (smallPanel .partialMode .fullRefresh 2 2))) State.panel
      (smallPanel .partialMode .fullRefresh 0 2) := by decide

/-- X11. -/
theorem test_setModeFull :
    shows (exec .eSetmodeF (panelState (smallPanel .partialMode .noPolicy 3 0))) State.panel
      (smallPanel .fullMode .noPolicy 0 0) := by decide

/-- E2. -/
theorem test_geometry : shows (exec .eGeom (panelState bigPanel)) State.r 0x019100f100000000 := by decide

/-- E1: the panel state after initialisation. -/
theorem test_panelInit :
    shows (exec (.eInit 242 402) { panelState bigPanel with eReady := false }) (fun t => (t.st, t.eReady, t.panel))
      (0, true, ⟨.partialMode, .noPolicy, 0, 9, false, 242, 402⟩) := by decide

/-- E14. -/
theorem test_powerOff :
    shows (exec .ePoweroff (panelState bigPanel)) sent [(false, 0x10), (true, 0x01)] := by decide

/-- E12: a malformed bitmap; nothing is sent. -/
theorem test_putBitmapMalformed :
    shows (exec (.ePutbmp 0 0 9 1 [0x00]) (panelState bigPanel)) (fun t => (t.st, t.trace)) (3, []) := by decide

/-- E11: an offset below 0. -/
theorem test_putBitmapRefused :
    exec (.ePutbmp 241 0 1 1 [0x80]) (panelState bigPanel) = .refused .rowOffsetOutOfRange := by rfl

/-- The table's payloads of DrawRegionX and, for a first row above the last, DrawRegionY, and a register read (R108,
R66). -/
theorem test_wireRows :
    shows (exec (.epdDrawRegionX 0 241) (panelState bigPanel)) sent [(false, 0x44), (true, 0x00), (true, 0x1e)] ∧
      shows (exec (.epdDrawRegionY 0x0102 3) (panelState bigPanel)) sent
        [(false, 0x45), (true, 0x02), (true, 0x01), (true, 0x03), (true, 0x00)] ∧
      shows (exec .touchConfigRead { State.reset with answers := pollAnswers [] [some [1, 2, 3, 4, 5]] [] })
        (fun t => (t.st, t.dout)) (0, [1, 2, 3, 4, 5]) := by decide

/-! Witnesses: for each statement with hypotheses, a concrete state and operands that meet all of them, with the boundary
values of its clauses. -/

theorem test_witness_DecodeInvertsEncode :
    (Instr.touchFrameRead 5).wellFormed = true ∧ (Instr.epdDrawRegionX 65535 0).wellFormed = true := by decide

theorem test_witness_DecodedWordIsItsRow : decode ⟨.touch, 0x814e, 0x51, 0, []⟩ ≠ .ok .touchStatusRead ∧
    decode ⟨.touch, 0x814e, 0x50, 0, []⟩ = .ok (.touchFrameRead 5) := by decide

theorem test_witness_ReservedWordsAreIllegal :
    (0x0503 : BitVec 16).toNat ∉ hostWords ∧ (0x0502 : BitVec 16).toNat ∈ hostWords ∧
      (0x2901 : BitVec 16).toNat ∉ hostWords ∧ (0x2900 : BitVec 16).toNat ∈ hostWords := by decide

theorem test_witness_StepRunsTheDecodedInstruction :
    (State.reset.presentRequest ⟨.host, 0x0600, 0, 0, []⟩).requests = [⟨.host, 0x0600, 0, 0, []⟩] ∧
      decode ⟨.host, 0x0600, 0, 0, []⟩ = .ok .bTell ∧ State.reset.requests = [] := by decide

/-- A buffer of at most 4 bytes. -/
def tightState (bs : List Byte) (cur : BitVec 64) : State :=
  { bufState .big bs cur with par := { Params.defaults with bufMax := 4 } }

theorem test_witness_WrapLoadsTheBuffer :
    [1, 2, 3, (4 : Byte)].length ≤ (tightState [] 0).par.bufMax.toNat ∧
      (tightState [] 0).par.bufMax.toNat < [1, 2, 3, 4, (5 : Byte)].length := by decide

theorem test_witness_ReadReturnsTheNextBytes :
    widthOf 1 ≤ (tightState [1, 2, 3] 1).buf.size - (tightState [1, 2, 3] 1).cur.toNat ∧
      (tightState [1, 2, 3] 2).buf.size - (tightState [1, 2, 3] 2).cur.toNat < widthOf 1 := by decide

theorem test_witness_WriteReplacesOrGrows :
    (tightState [1, 2, 3] 2).cur.toNat ≤ (tightState [1, 2, 3] 2).buf.size ∧
      (tightState [1, 2, 3] 2).cur.toNat + widthOf 1 ≤ (tightState [1, 2, 3] 2).par.bufMax.toNat ∧
      (tightState [1, 2, 3] 3).cur.toNat ≤ (tightState [1, 2, 3] 3).buf.size ∧
      (tightState [1, 2, 3] 3).par.bufMax.toNat < (tightState [1, 2, 3] 3).cur.toNat + widthOf 1 := by decide

theorem test_witness_WriteLosesNothing :
    (tightState [1, 2, 3] 1).buf.wf ∧ (tightState [1, 2, 3] 1).cur.toNat ≤ (tightState [1, 2, 3] 1).buf.size ∧
      (∃ t, exec (writeOf 0 0x7f) (tightState [1, 2, 3] 1) = .next t ∧ t.st = 0) ∧
      0 < (tightState [1, 2, 3] 1).cur.toNat ∧ (tightState [1, 2, 3] 1).cur.toNat + widthOf 0 ≤ 2 ∧
      2 < (tightState [1, 2, 3] 1).buf.size :=
  ⟨by decide, by decide, ⟨_, rfl, rfl⟩, by decide, by decide, by decide⟩

theorem test_witness_ByteOrderOfTheBuffer :
    (tightState [] 0).cur.toNat ≤ (tightState [] 0).buf.size ∧
      (∃ t, exec (writeOf 2 0x11223344) (tightState [] 0) = .next t ∧ t.st = 0) ∧ 3 < widthOf 2 ∧
      (∀ din, Instr.bRead1 ≠ .bWrapLe din ∧ Instr.bRead1 ≠ .bWrapBe din) ∧
      (∃ t, exec .bRead1 (tightState [9] 0) = .next t) :=
  ⟨by decide, ⟨_, rfl, rfl⟩, by decide, fun _ => ⟨nofun, nofun⟩, ⟨_, rfl⟩⟩

theorem test_witness_ValueAndByteConversion : 255 < 2 ^ (8 * 1) ∧ 0 < 1 ∧ 0 < 2 ^ (8 * 0) := by decide

theorem test_witness_SeekMovesInsideTheBuffer :
    (tightState [1, 2, 3] 1).bufferInv ∧ (0 : Int) + (3 : BitVec 64).toInt = (tightState [1, 2, 3] 1).buf.size ∧
      ((tightState [1, 2, 3] 1).cur.toNat : Int) + (0xffffffffffffffff : BitVec 64).toInt = 0 ∧
      ((tightState [1, 2, 3] 1).buf.size : Int) + (1 : BitVec 64).toInt = 4 ∧
      (0 : Int) + (0xffffffffffffffff : BitVec 64).toInt < 0 := by decide

theorem test_witness_CodecRoundTrip :
    (tightState [1, 2, 3] 2).bufferInv ∧ (0xffff : BitVec 64).toNat < 2 ^ (8 * widthOf 1) ∧
      (tightState [1, 2, 3] 2).cur.toNat + widthOf 1 ≤ (tightState [1, 2, 3] 2).par.bufMax.toNat := by decide

/-- A state before `T.INIT` with the answers of its reads. -/
def initState (reads : List (Option (List Byte))) : State :=
  { State.reset with answers := pollAnswers [] reads [] }

theorem test_witness_TouchInitialisation :
    (initState [some touchIdExpect, some [1, 2, 3, 4, 5]]).answers.regRead =
        [some touchIdExpect, some [1, 2, 3, 4, 5]] ∧
      touchIdExpect.take 4 = [0x31, 0x31, 0x35, 0x38] ∧ 5 ≤ [1, 2, 3, 4, (5 : Byte)].length ∧
      (initState [some [0, 0, 0, 0]]).answers.regRead = [some [0, 0, 0, 0]] ∧
      [0, 0, 0, (0 : Byte)].take 4 ≠ [0x31, 0x31, 0x35, 0x38] ∧ 4 ≤ [0, 0, 0, (0 : Byte)].length ∧
      (initState [some [0x31, 0x31, 0x35]]).answers.regRead = [some [0x31, 0x31, 0x35]] ∧
      [0x31, 0x31, (0x35 : Byte)].length < 4 ∧
      (initState [none]).answers.regRead = [none] ∧
      (initState [some touchIdExpect, some [1, 2, 3, 4]]).answers.regRead =
        [some touchIdExpect, some [1, 2, 3, 4]] ∧ [1, 2, 3, (4 : Byte)].length < 5 ∧
      (initState [some touchIdExpect, none]).answers.regRead = [some touchIdExpect, none] := by decide

theorem test_witness_TouchConfiguration :
    (touchState [] false State.reset.answers).tReady = true ∧ State.reset.tReady = false := by decide

theorem test_witness_TouchLock :
    (touchState [] false (pollAnswers [] [] [true])).tReady = true ∧
      (touchState [] false (pollAnswers [] [] [true])).answers.regWrite = [true] ∧
      (touchState [] false (pollAnswers [] [] [false])).answers.regWrite = [false] ∧
      State.reset.tReady = false := by decide

theorem test_witness_TouchWait :
    Timeout.ms 0xfffffffffffffffe =
        (if (0xfffffffffffffffe : BitVec 64) = 0xffffffffffffffff then .unset
          else .ms (0xfffffffffffffffe : BitVec 64).toNat) ∧
      Timeout.unset =
        (if (0xffffffffffffffff : BitVec 64) = 0xffffffffffffffff then .unset
          else .ms (0xffffffffffffffff : BitVec 64).toNat) ∧
      (touchState [] false (pollAnswers [.never] [] [])).tReady = true ∧
      (touchState [] false (pollAnswers [.never] [] [])).answers.touchWait = [.never] ∧
      (touchState [] false (pollAnswers [.fired] [] [])).answers.touchWait = [.fired] ∧
      State.reset.tReady = false := by decide

theorem test_witness_PollWithoutPendingEvent :
    (touchState [] false (pollAnswers [.expired] [] [])).tReady = true ∧
      (touchState [] false (pollAnswers [.expired] [] [])).answers.touchWait = [.expired] ∧
      WaitAnswer.expired ≠ .fired := by decide

theorem test_witness_LockedPoll :
    (touchState [] true (pollAnswers [.fired] [some [0xcc]] [])).tReady = true ∧
      (touchState [] true (pollAnswers [.fired] [some [0xcc]] [])).touch.locked = true ∧
      (touchState [] true (pollAnswers [.fired] [some [0xcc]] [])).answers.touchWait = [.fired] ∧
      (touchState [] true (pollAnswers [.fired] [some [0xcc]] [])).answers.regRead = [some [0xcc]] ∧
      (touchState [] true (pollAnswers [.fired] [some [0xcd]] [true])).answers.regRead = [some [0xcd]] ∧
      (touchState [] true (pollAnswers [.fired] [some [0xcd]] [true])).answers.regWrite = [true] ∧
      (0xcd : Byte) ≠ 0xcc := by decide

/-- A ready, unlocked TES that tracks id 3, with a poll's answers. -/
def trackedState (reads : List (Option (List Byte))) : State :=
  touchState [(3, ⟨.touch, 3, 10, 20, 5⟩)] false
    { pollAnswers [.fired] reads [true] with eventOrder := [[]] }

theorem test_witness_PollOfStatusZero :
    (trackedState [some [0x00]]).tReady = true ∧ (trackedState [some [0x00]]).touch.locked = false ∧
      (trackedState [some [0x00]]).answers.touchWait = [.fired] ∧
      (trackedState [some [0x00]]).answers.regRead = [some [0x00]] := by decide

theorem test_witness_MalformedCountReleasesAll :
    (trackedState [some [0x10]]).tReady = true ∧ (trackedState [some [0x10]]).touch.locked = false ∧
      (trackedState [some [0x10]]).answers.touchWait = [.fired] ∧
      (trackedState [some [0x10]]).answers.regRead = [some [0x10]] ∧
      (trackedState [some [0x10]]).answers.regWrite = [true] ∧ (0x10 : Byte) ≠ 0 ∧
      ((0x10 : Byte) &&& 0x0f) = 0 ∧ 5 < ((0x06 : Byte) &&& 0x0f).toNat ∧ 5 < ((0xff : Byte) &&& 0x0f).toNat := by
  decide

/-- Five records of different ids, the first of them tracked in `trackedState` and changed. -/
def fiveRecords : List TouchRecord :=
  [⟨3, 10, 20, 6⟩, ⟨0, 0, 0, 0⟩, ⟨255, 65535, 65535, 65535⟩, ⟨1, 2, 3, 4⟩, ⟨2, 2, 3, 4⟩]

/-- The frame of records with reserved bytes of zero. -/
def frameOf (status : Byte) (recs : List TouchRecord) : List Byte :=
  [status] ++ (List.zipWith recordBytes recs (List.replicate recs.length 0)).flatten

/-- The answers of a poll that reports records. -/
def framePollState (status : Byte) (recs : List TouchRecord) : State :=
  trackedState [some [status], some (frameOf status recs)]

theorem test_witness_ValidFrameClassification :
    (framePollState 0x85 fiveRecords).tReady = true ∧ (framePollState 0x85 fiveRecords).touch.locked = false ∧
      tableInv (framePollState 0x85 fiveRecords).touch.table ∧
      (framePollState 0x85 fiveRecords).answers.touchWait = [.fired] ∧
      fiveRecords.length = ((0x85 : Byte) &&& 0x0f).toNat ∧ 1 ≤ fiveRecords.length ∧ fiveRecords.length ≤ 5 ∧
      (fiveRecords.map TouchRecord.touchId).Nodup ∧ [(0x85 : Byte)].length = 1 ∧
      (List.replicate fiveRecords.length (0 : Byte)).length = fiveRecords.length ∧
      frameOf 0x85 fiveRecords =
        [0x85] ++ (List.zipWith recordBytes fiveRecords (List.replicate fiveRecords.length 0)).flatten ++ [] ∧
      (framePollState 0x85 fiveRecords).answers.regRead = [some [0x85], some (frameOf 0x85 fiveRecords)] ∧
      (framePollState 0x85 fiveRecords).answers.regWrite = [true] := by decide

theorem test_witness_ValidFrameOfOneRecord :
    tableInv (framePollState 0x01 [⟨3, 10, 20, 5⟩]).touch.table ∧
      [(⟨3, 10, 20, 5⟩ : TouchRecord)].length = ((0x01 : Byte) &&& 0x0f).toNat ∧
      ([(⟨3, 10, 20, 5⟩ : TouchRecord)].map TouchRecord.touchId).Nodup := by decide

theorem test_witness_RepeatedTouchIdIsRefused :
    (framePollState 0x02 [⟨5, 0, 0, 0⟩, ⟨5, 1, 1, 1⟩]).tReady = true ∧
      [(⟨5, 0, 0, 0⟩ : TouchRecord), ⟨5, 1, 1, 1⟩].length = ((0x02 : Byte) &&& 0x0f).toNat ∧
      ¬ ([(⟨5, 0, 0, 0⟩ : TouchRecord), ⟨5, 1, 1, 1⟩].map TouchRecord.touchId).Nodup ∧
      (framePollState 0x02 [⟨5, 0, 0, 0⟩, ⟨5, 1, 1, 1⟩]).answers.regRead =
        [some [0x02], some ([0x02] ++ (List.zipWith recordBytes [⟨5, 0, 0, 0⟩, ⟨5, 1, 1, 1⟩] [0, 0]).flatten ++ [])] ∧
      (framePollState 0x02 [⟨5, 0, 0, 0⟩, ⟨5, 1, 1, 1⟩]).answers.regWrite = [true] ∧
      (framePollState 0x02 [⟨5, 0, 0, 0⟩, ⟨5, 1, 1, 1⟩]).answers.touchWait = [.fired] ∧
      (framePollState 0x02 [⟨5, 0, 0, 0⟩, ⟨5, 1, 1, 1⟩]).touch.locked = false := by decide

theorem test_witness_ShortFrameIsOutOfRange :
    (trackedState [some [0x02], some (List.replicate 16 0)]).tReady = true ∧
      (trackedState [some [0x02], some (List.replicate 16 0)]).touch.locked = false ∧
      (trackedState [some [0x02], some (List.replicate 16 0)]).answers.touchWait = [.fired] ∧
      1 ≤ ((0x02 : Byte) &&& 0x0f).toNat ∧ ((0x02 : Byte) &&& 0x0f).toNat ≤ 5 ∧
      (List.replicate 16 (0 : Byte)).length < 1 + 8 * ((0x02 : Byte) &&& 0x0f).toNat ∧
      (trackedState [some [0x02], some (List.replicate 16 0)]).answers.regRead =
        [some [0x02], some (List.replicate 16 0)] ∧
      (trackedState [some [0x02], some (List.replicate 16 0)]).answers.regWrite = [true] := by decide

theorem test_witness_EventGrammarOverPolls :
    (trackedState [some [0x10]]).tReady = true ∧ (trackedState [some [0x10]]).touch.locked = false ∧
      tableInv (trackedState [some [0x10]]).touch.table ∧
      ∃ t, PollRun (trackedState [some [0x10]]) ([] ++ [⟨.release, 3, 10, 20, 5⟩]) t :=
  ⟨by decide, by decide, by decide, _, .poll .start rfl rfl rfl⟩

theorem test_witness_AtMostTenEvents :
    (trackedState [some [0x10]]).touchInv ∧ ∃ t, exec .tPoll (trackedState [some [0x10]]) = .next t ∧ t.st = 0 :=
  ⟨by decide, _, rfl, rfl⟩

theorem test_witness_UnreadyUnitsRefuse :
    Instr.tPoll.channel = .host ∧ unitOf .tPoll = .tes ∧ Instr.tPoll ≠ .tInit ∧ State.reset.tReady = false ∧
      unitOf (.ePutbmp 0 0 0 0 []) = .ers ∧ (∀ w h, Instr.ePutbmp 0 0 0 0 [] ≠ .eInit w h) ∧
      State.reset.eReady = false :=
  ⟨rfl, rfl, nofun, rfl, rfl, fun _ _ => nofun, rfl⟩

theorem test_witness_ErrorsClearTheReadyFlag :
    (∃ t, exec .tInit (initState [none]) = .next t ∧ t.st = 1) ∧
      (∃ t, exec .tInit (initState [some [0, 0, 0, 0]]) = .next t ∧ t.st = 2) ∧
      (∃ t, exec .tInit (initState [some touchIdExpect, some [1, 2, 3, 4, 5]]) = .next t ∧ t.st = 0) ∧
      (∃ t, exec .bTell .reset = .next t ∧ t.st ≠ 1) ∧
      (∃ t, exec (.eInit 8 1) (panelState bigPanel) = .next t ∧ t.st = 0) :=
  ⟨⟨_, rfl, rfl⟩, ⟨_, rfl, rfl⟩, ⟨_, rfl, rfl⟩, ⟨_, rfl, by decide⟩, ⟨_, rfl, rfl⟩⟩

theorem test_witness_UnitsAreIsolated :
    (∃ t, exec .bTell .reset = .next t ∧ unitOf .bTell = .bbc) ∧
      (∃ t, exec .tPoll .reset = .next t ∧ unitOf .tPoll = .tes) ∧
      (∃ t, exec .eGeom .reset = .next t ∧ unitOf .eGeom = .ers) :=
  ⟨⟨_, rfl, rfl⟩, ⟨_, rfl, rfl⟩, ⟨_, rfl, rfl⟩⟩

/-- A ready ERS whose second write fails. -/
def failingState : State :=
  { panelState bigPanel with answers := { (panelState bigPanel).answers with spiWrite := [true, false] } }

theorem test_witness_AFailedCallEndsItsOperation :
    (∃ t, exec .ePoweroff failingState = .next t ∧ t.st = 1) ∧
      ∃ t, exec .ePoweroff (panelState bigPanel) = .next t ∧ t.st = 0 :=
  ⟨⟨_, rfl, rfl⟩, ⟨_, rfl, rfl⟩⟩

theorem test_witness_OnlyTheFourteenOpcodes :
    ∃ t, exec .ePoweroff (panelState bigPanel) = .next t ∧ (false, (0x10 : Byte)) ∈ sent t :=
  ⟨_, rfl, by decide⟩

theorem test_witness_FieldsHaveTheirWriters :
    (∃ t, exec .eClearW (panelState (smallPanel .partialMode .clearToWhite 1 1)) = .next t ∧ t.st ≠ 1) ∧
      (∃ t, exec .tLock (touchState [] false (pollAnswers [] [] [true])) = .next t ∧ t.st ≠ 1) ∧
      (∀ w h, Instr.eClearW ≠ .eInit w h) ∧ (∀ p, Instr.eClearW ≠ setautoOf p) ∧ isUpload .eGeom = false :=
  ⟨⟨_, rfl, by decide⟩, ⟨_, rfl, by decide⟩, fun _ _ => nofun, fun p => by cases p <;> nofun, rfl⟩

theorem test_witness_PanelInitialisation :
    (8 : BitVec 16) ≠ 0 ∧ (1 : BitVec 16) ≠ 0 ∧
      (panelState bigPanel).quietFor (busSetupRecords ++ applyConfigRecords knownPar 8 1 .partialMode) ∧
      (0 : BitVec 16) = 0 ∧ ∃ t, exec (.eInit 8 1) failingState = .next t ∧ t.st = 1 :=
  ⟨by decide, by decide, by decide, rfl, ⟨_, rfl, rfl⟩⟩

theorem test_witness_SetDisplaySize :
    (panelState bigPanel).eReady = true ∧ (1 : BitVec 16) ≠ 0 ∧ (0 : BitVec 16) = 0 ∧ State.reset.eReady = false := by
  decide

theorem test_witness_DisplayGeometry : (panelState bigPanel).eReady = true ∧ State.reset.eReady = false := by decide

theorem test_witness_PowerOff :
    (panelState bigPanel).eReady = true ∧ (panelState bigPanel).answers.spiWrite.take 2 = [true, true] ∧
      failingState.eReady = true ∧ failingState.answers.spiWrite.take 2 = [true, false] ∧
      { failingState.answers with spiWrite := [false] }.spiWrite.take 1 = [false] ∧ State.reset.eReady = false := by
  decide

/-- A state by its answers on `E_BUSY`. -/
def busyState (levels : List Bool) (waits : List WaitAnswer) : State :=
  { panelState bigPanel with
    answers := { (panelState bigPanel).answers with busyLevel := levels, busyWait := waits } }

theorem test_witness_WaitForBusy :
    (busyState [false] []).answers.busyLevel = [false] ∧ (busyState [true] [.expired]).answers.busyLevel = [true] ∧
      (busyState [true] [.expired]).answers.busyWait = [.expired] ∧ WaitAnswer.expired ≠ .never ∧
      (busyState [true] [.never]).answers.busyWait = [.never] ∧
      (busyState [true] [.never]).par.busyTimeout = .unset := by decide

theorem test_witness_OverlapIsTheCommonPixels : (8 : BitVec 16) ≠ 0 ∧ (3 : BitVec 16) ≠ 0 := by decide

theorem test_witness_RowBytesOfABitmap :
    overlapEmpty (overlapOf bigPanel 0 0 8 2) = false ∧ overlapFits (overlapOf bigPanel 0 0 8 2) 0 0 8 2 = true ∧
      1 < overlapHeight (overlapOf bigPanel 0 0 8 2) ∧ [(0 : Byte), 0].length = (8 + 7) / 8 * 2 ∧
      overlapEmpty (overlapOf bigPanel (-3) (-1) 8 3) = false ∧
      overlapFits (overlapOf bigPanel (-3) (-1) 8 3) (-3) (-1) 8 3 = false ∧
      1 < overlapHeight (overlapOf bigPanel (-3) (-1) 8 3) ∧ [(0 : Byte), 0, 0].length = (8 + 7) / 8 * 3 ∧
      0 < (overlapWidth (overlapOf bigPanel (-3) (-1) 8 3) + 7) / 8 ∧
      ((10 : Nat) : Int) = (overlapOf bigPanel (-3) (-1) 8 3).cx0 - (-3) + (8 * 0 + 7 : Nat) ∧
      ((2 : Nat) : Int) = (overlapOf bigPanel (-3) (-1) 8 3).cy0 - (-1) + (1 : Nat) := by decide

theorem test_witness_SetRefreshMode :
    (panelState (smallPanel .partialMode .noPolicy 3 0)).eReady = true ∧
      (panelState (smallPanel .partialMode .noPolicy 3 0)).quietFor (applyConfigRecords knownPar 8 1 .partialMode) ∧
      (panelState (smallPanel .partialMode .noPolicy 3 0)).quietFor (applyConfigRecords knownPar 8 1 .fullMode) := by
  decide

theorem test_witness_SetAutoRefresh : (panelState bigPanel).eReady = true ∧ State.reset.eReady = false := by decide

theorem test_witness_SetMaxPartialRefreshes :
    (panelState bigPanel).eReady = true ∧ State.reset.eReady = false := by decide

/-- The hypotheses of an upload statement, for a plan of records. -/
abbrev uploadReady (p : PanelUnit) (body : List Record) : Prop :=
  (panelState p).eReady = true ∧ (panelState p).panel.autoRefreshing = false ∧
    (panelState p).quietFor (uploadPlan knownPar p body)

theorem test_witness_RawFramebufferUpload :
    uploadReady (smallPanel .fullMode .noPolicy 0 0) (uploadFullRecords 8 1 [0x11]) ∧
      uploadReady (smallPanel .partialMode .fullRefresh 1 2) (uploadFullRecords 8 1 [0x11]) ∧
      uploadReady (smallPanel .partialMode .fullRefresh 2 2) (uploadFullRecords 8 1 [0x11]) ∧
      uploadReady (smallPanel .partialMode .clearToWhite 2 2) (uploadFullRecords 8 1 []) := by decide

theorem test_witness_ClearUploadsAUniformFrame :
    uploadReady (smallPanel .partialMode .noPolicy 0 0) (uploadFullRecords 8 1 (List.replicate ((8 + 7) / 8 * 1) 0xff)) ∧
      uploadReady (smallPanel .partialMode .noPolicy 0 0)
        (uploadFullRecords 8 1 (List.replicate ((8 + 7) / 8 * 1) 0x00)) := by decide

/-- The hypotheses on a bitmap's rows. -/
abbrev rowsHaveOffsets (p : PanelUnit) (o : Overlap) : Prop :=
  overlapEmpty o = true ∨ ∀ row < overlapHeight o,
    0 ≤ offsetBaseW knownPar p.width - 2 - o.cx0 ∧ 0 ≤ offsetBaseH knownPar p.height - row - o.cy0 ∧
      offsetBaseH knownPar p.height - row - o.cy0 ≤ 65535

theorem test_witness_PutBitmapUpload :
    uploadReady bigPanel (uploadBitmapRecords knownPar bigPanel 240 1 1 1 [0x80]) ∧
      [(0x80 : Byte)].length = (1 + 7) / 8 * 1 ∧ (240 : BitVec 32).toInt = 240 ∧
      rowsHaveOffsets bigPanel (overlapOf bigPanel 240 1 1 1) ∧
      uploadReady bigPanel (uploadBitmapRecords knownPar bigPanel 300 300 8 1 [0x00]) ∧
      rowsHaveOffsets bigPanel (overlapOf bigPanel 300 300 8 1) := by decide

theorem test_witness_MalformedBitmapIsOutOfRange :
    (panelState bigPanel).eReady = true ∧
      [(0x00 : Byte)].length ≠ ((9 : BitVec 16).toNat + 7) / 8 * (1 : BitVec 16).toNat := by
  decide

theorem test_witness_RowOffsetOutsideIsRefused :
    (panelState bigPanel).eReady = true ∧ [(0x80 : Byte)].length = (1 + 7) / 8 * 1 ∧
      overlapEmpty (overlapOf bigPanel 241 0 1 1) = false ∧ 0 < overlapHeight (overlapOf bigPanel 241 0 1 1) ∧
      offsetBaseW knownPar bigPanel.width - 2 - (overlapOf bigPanel 241 0 1 1).cx0 < 0 := by decide

theorem test_witness_RowOffsetBelowAndAbove :
    offsetBaseH { knownPar with offsetBaseH := some 1 } 402 - 2 - (overlapOf bigPanel 0 0 8 3).cy0 < 0 ∧
      2 < overlapHeight (overlapOf bigPanel 0 0 8 3) ∧
      65535 < offsetBaseH { knownPar with offsetBaseH := some 65536 } 402 - 0 - (overlapOf bigPanel 0 0 8 3).cy0 := by
  decide

theorem test_witness_BusyAnswersChangeNoByte :
    Instr.eSetmodeP.channel = .host ∧ unitOf .eSetmodeP = .ers ∧
      (busyState [true, false] [.expired, .fired]).eReady = true ∧ bigPanel.autoRefreshing = false ∧
      (∀ w h, Instr.eSetmodeP = .eInit w h ∨ Instr.eSetmodeP = .eSetsize w h → w ≠ 0 ∧ h ≠ 0) ∧
      (∀ px py bw bh din, Instr.eSetmodeP = .ePutbmp px py bw bh din → bitmapOk bw bh din = true ∧
        regionOffsetsOk knownPar bigPanel (overlapOf bigPanel px.toInt py.toInt bw bh) = true) ∧
      (busyState [true, false] [.expired, .fired]).answers.spiWrite.take
          (spiCalls (plannedRecords .eSetmodeP knownPar bigPanel)) =
        List.replicate (spiCalls (plannedRecords .eSetmodeP knownPar bigPanel)) true ∧
      busyCalls (plannedRecords .eSetmodeP knownPar bigPanel) ≤ 2 ∧
      (∀ a ∈ [WaitAnswer.expired, .fired], a ≠ .never) :=
  ⟨rfl, rfl, rfl, rfl, fun _ _ h => h.elim nofun nofun, fun _ _ _ _ _ => nofun, by decide, by decide, by decide⟩

theorem test_witness_CounterBound :
    (∀ n, Instr.eClearW ≠ .eSetmax n) ∧ isUpload .eClearW = true ∧
      (∃ t, exec .eClearW (panelState (smallPanel .partialMode .clearToWhite 1 2)) = .next t ∧ t.st = 0 ∧
        t.eReady = true) ∧
      (1 : BitVec 32).toNat ≤ max (2 : BitVec 32).toNat 1 ∧ (1 : BitVec 32).toNat < (2 : BitVec 32).toNat :=
  ⟨fun _ => nofun, rfl, ⟨_, rfl, rfl, rfl⟩, by decide, by decide⟩

theorem test_witness_PanelCommandsOnTheWire :
    (panelState bigPanel).quietFor (cmdRecords 0x12 []) ∧ (panelState bigPanel).quietFor (cmdRecords 0x24 [0xff]) ∧
      (panelState bigPanel).quietFor (cmdRecords 0x01 (epdDocPayload knownPar 242 402)) := by decide

theorem test_witness_TouchRegisterAccesses :
    (initState [some [1, 2, 3, 4]]).answers.regRead = [some [1, 2, 3, 4]] ∧ 4 ≤ [1, 2, 3, (4 : Byte)].length ∧
      (initState [some [7]]).answers.regRead = [some [7]] ∧ 1 ≤ [(7 : Byte)].length ∧
      (touchState [] false (pollAnswers [] [] [true])).answers.regWrite = [true] := by decide

theorem test_witness_StepKeepsTheBufferInvariant :
    ((tightState [1, 2, 3] 3).presentRequest ⟨.host, 0x0400, 0x7f, 0, []⟩).bufferInv ∧
      ∃ t, step ((tightState [1, 2, 3] 3).presentRequest ⟨.host, 0x0400, 0x7f, 0, []⟩) = .next t :=
  ⟨by decide, _, rfl⟩

theorem test_witness_StepKeepsTheTouchInvariant :
    ((framePollState 0x85 fiveRecords).presentRequest ⟨.host, 0x1400, 0, 0, []⟩).touchInv ∧
      ∃ t, step ((framePollState 0x85 fiveRecords).presentRequest ⟨.host, 0x1400, 0, 0, []⟩) = .next t :=
  ⟨by decide, _, rfl⟩

theorem test_witness_StepKeepsThePanelInvariant :
    ((panelState (smallPanel .partialMode .fullRefresh 2 2)).presentRequest ⟨.host, 0x2600, 0, 0, []⟩).panelInv ∧
      ∃ t, step ((panelState (smallPanel .partialMode .fullRefresh 2 2)).presentRequest
        ⟨.host, 0x2600, 0, 0, []⟩) = .next t :=
  ⟨by decide, _, rfl⟩

end Sys2Proof.Tests
end

section
/-! The request port and the step over it (00_scope.md R2, R12): what `fetch` and `step` answer, by what the host has
presented. -/

namespace Sys2Proof.Machine

theorem fetch_of_requests_nil {s : State} (h : s.requests = []) : fetch s = none := by
  simp only [fetch, h]

theorem fetch_of_requests_cons {s : State} {q : Request} {rest : List Request} (h : s.requests = q :: rest) :
    fetch s = some (q, { s with requests := rest }) := by
  simp only [fetch, h]

/-- The idle block: a step without a request changes nothing (assumption log 1). -/
theorem step_of_requests_nil {s : State} (h : s.requests = []) : step s = .next s := by
  simp only [step, fetch_of_requests_nil h]

/-- The request is taken before its instruction runs, so `exec` sees only the requests after it (R12). -/
theorem step_of_decode_ok {s : State} {q : Request} {rest : List Request} {i : Instr}
    (hreq : s.requests = q :: rest) (hdec : decode q = .ok i) :
    step s = exec i { s with requests := rest } := by
  simp only [step, fetch_of_requests_cons hreq, hdec]

/-- Settles O5, by the two cases of the request port: a decodable request at its head, or none. -/
theorem stepRunsTheDecodedInstruction : Obligations.StepRunsTheDecodedInstruction := by
  unfold Obligations.StepRunsTheDecodedInstruction
  intro s
  exact ⟨fun _ _ _ hreq hdec => step_of_decode_ok hreq hdec, step_of_requests_nil⟩

end Sys2Proof.Machine
end

section
/-! What an operation of BBC and of TES can do, said once: where it goes on, its unit has made one of the updates listed
for it and has otherwise only called the environment; where it raises, the error is one of the unit's own. Everything
the statements of 10_state.md say of an instruction is read off this. -/

namespace Sys2Proof.Machine

/-! The state by units (R22, R26 to R38), and what belongs to no unit. -/

/-- BBC is as before. -/
def SameCodec (s t : State) : Prop := t.buf = s.buf ∧ t.cur = s.cur ∧ t.bend = s.bend

/-- TES is as before. -/
def SameTouch (s t : State) : Prop := t.touch = s.touch ∧ t.tReady = s.tReady

/-- ERS is as before. -/
def SamePanel (s t : State) : Prop := t.panel = s.panel ∧ t.eReady = s.eReady

/-- The parameters and the presented requests are as before. -/
def SameHost (s t : State) : Prop := t.par = s.par ∧ t.requests = s.requests

/-! Sequencing. -/

theorem inOrder_singleton (p : State → Res Unit) (s : State) : inOrder [p] s = p s := by
  rw [inOrder_cons]
  cases p s <;> rfl

theorem ends_and {α : Type} {x : Res α} {P P' : State → Prop} {Q Q' : Error → State → Prop} (h : x.ends P Q)
    (h' : x.ends P' Q') : x.ends (fun s => P s ∧ P' s) fun e s => Q e s ∧ Q' e s := by
  cases x with
  | ok a s => exact ⟨h, h'⟩
  | raised e s => exact ⟨h, h'⟩
  | stuck f => trivial
  | refused r => trivial

/-- A check: it goes on with the state as it is where `φ` holds, and raises a mild error otherwise. -/
def Gate (s : State) (φ : Prop) (x : Res Unit) : Prop :=
  x.ends (fun s' => s' = s ∧ φ) fun e s' => e.isMild = true ∧ s' = s

theorem gate_touchReady (s : State) : Gate s (s.tReady = true) (requireTouchReady s) := by
  unfold requireTouchReady
  split
  · exact ⟨rfl, ‹_›⟩
  · exact ⟨rfl, rfl⟩

theorem gate_panelReady (s : State) : Gate s (s.eReady = true) (requirePanelReady s) := by
  unfold requirePanelReady
  split
  · exact ⟨rfl, ‹_›⟩
  · exact ⟨rfl, rfl⟩

theorem gate_size (w h : BitVec 16) (s : State) : Gate s (w ≠ 0 ∧ h ≠ 0) (requireSize w h s) := by
  unfold requireSize
  split
  · exact ⟨rfl, rfl⟩
  · exact ⟨rfl, not_or.mp ‹_›⟩

theorem gate_bitmap (bw bh : BitVec 16) (din : List Byte) (s : State) :
    Gate s (bitmapOk bw bh din = true) (requireBitmap bw bh din s) := by
  unfold requireBitmap
  split
  · exact ⟨rfl, ‹_›⟩
  · exact ⟨rfl, rfl⟩

theorem gate_offsets (px py : Int) (bw bh : BitVec 16) (s : State) :
    Gate s (regionOffsetsOk s.par s.panel (overlapOf s.panel px py bw bh) = true) (requireOffsets px py bw bh s) := by
  unfold requireOffsets
  split
  · exact ⟨rfl, ‹_›⟩
  · trivial

/-! Unit BBC. -/

/-- Only the buffer, the cursor and the byte order differ. -/
def CodecOnly (s s' : State) : Prop := ∃ b c e, s' = { s with buf := b, cur := c, bend := e }

/-- How a BBC operation ends (40_codec.md): without any call, and with R23 kept; its errors come before any effect. -/
def CodecEnds (s : State) (x : Res Results) : Prop :=
  x.ends (fun s' => CodecOnly s s' ∧ (s.bufferInv → s'.bufferInv)) fun e s' => e.isMild = true ∧ s' = s

theorem codecEnds_result (res : Results) (s : State) : CodecEnds s (.ok res s) := ⟨⟨_, _, _, rfl⟩, id⟩

theorem codecEnds_wrapBuffer (e : Endian) (din : List Byte) (s : State) : CodecEnds s (wrapBuffer e din s) := by
  rcases wrapBuffer_cases e din s with ⟨-, h⟩ | ⟨hlen, h⟩ <;> rw [h]
  · exact ⟨rfl, rfl⟩
  · exact ⟨⟨_, _, _, rfl⟩, fun _ => ⟨ofBytes_wf din, Nat.zero_le _, by simpa using hlen⟩⟩

/-- A cursor inside a buffer of R23's size is held by 64 bits. -/
theorem cursor_lt_of_le_bufMax (s : State) {n : Nat} (h : n ≤ s.par.bufMax.toNat) : n < 2 ^ 64 := by
  have := s.par.bufMax.isLt
  omega

theorem codecEnds_readBuffer (n : Nat) (s : State) : CodecEnds s (readBuffer n s) := by
  rcases readBuffer_cases n s with ⟨-, h⟩ | ⟨hn, h⟩ <;> rw [h]
  · exact ⟨rfl, rfl⟩
  · refine ⟨⟨_, _, _, rfl⟩, fun ⟨hwf, hcur, hmax⟩ => ⟨hwf, ?_, hmax⟩⟩
    have hin : s.cur.toNat + n ≤ s.buf.size := by omega
    have hlt := cursor_lt_of_le_bufMax s (hin.trans hmax)
    show (BitVec.ofNat 64 (s.cur.toNat + n)).toNat ≤ s.buf.size
    rwa [BitVec.toNat_ofNat, Nat.mod_eq_of_lt hlt]

/-- A write grows the buffer to the end of what it writes, and no further (R143). -/
theorem size_of_write (n v : Nat) (s : State) (hc : s.cur.toNat ≤ s.buf.size) :
    ((growBuffer n s).memWrite s.cur.toNat (bytesOf s.bend n v)).size = max s.buf.size (s.cur.toNat + n) := by
  rw [← toBytes_length, write_toBytes n v s hc]
  simp only [List.length_append, List.length_take, List.length_drop, bytesOf_length, toBytes_length]
  omega

theorem codecEnds_writeBuffer (n v : Nat) (s : State) : CodecEnds s (writeBuffer n v s) := by
  rcases writeBuffer_cases n v s with ⟨-, h⟩ | ⟨hn, h⟩ <;> rw [h]
  · exact ⟨rfl, rfl⟩
  · refine ⟨⟨_, _, _, rfl⟩, fun ⟨_, hcur, hmax⟩ => ⟨memWrite_wf _ _ _, ?_, ?_⟩⟩
    · have hlt := cursor_lt_of_le_bufMax s hn
      show (BitVec.ofNat 64 (s.cur.toNat + n)).toNat ≤ _
      rw [BitVec.toNat_ofNat, Nat.mod_eq_of_lt hlt, size_of_write n v s hcur]
      exact le_max_right _ _
    · show Memory.size _ ≤ s.par.bufMax.toNat
      rw [size_of_write n v s hcur]
      exact max_le hmax hn

theorem codecEnds_seekBuffer (o : Origin) (off : BitVec 64) (s : State) : CodecEnds s (seekBuffer o off s) := by
  rcases seekBuffer_cases o off s with ⟨-, h⟩ | ⟨hlo, hhi, h⟩ <;> rw [h]
  · exact ⟨rfl, rfl⟩
  · refine ⟨⟨_, _, _, rfl⟩, fun ⟨hwf, _, hmax⟩ => ⟨hwf, ?_, hmax⟩⟩
    obtain ⟨n, hn⟩ := Int.eq_ofNat_of_zero_le hlo
    rw [hn] at hhi ⊢
    have hin : n ≤ s.buf.size := by exact_mod_cast hhi
    have hlt := cursor_lt_of_le_bufMax s (hin.trans hmax)
    show (BitVec.ofInt 64 n).toNat ≤ s.buf.size
    rwa [BitVec.ofInt_natCast, BitVec.toNat_ofNat, Nat.mod_eq_of_lt hlt]

/-! Unit TES. -/

/-- The updates of TES by which an instruction may go on (41_touch.md), environment calls aside. -/
inductive TouchDone (i : Instr) (s : State) : State → Prop where
  | keep : TouchDone i s s
  | start (c : TouchConfig) (op : i = .tInit) :
      TouchDone i s { s with touch := { table := [], cfg := c, locked := false }, tReady := true }
  | lock (op : i = .tLock) : TouchDone i s ((s.setLocked true).setTable [])
  | unlock (op : i = .tPoll) : TouchDone i s ((s.setTable []).setLocked false)
  | releaseAll (op : i = .tPoll) : TouchDone i s (s.setTable [])
  | frame (rs : List TouchRecord) (op : i = .tPoll) (count : rs.length ≤ touchMaxCount)
      (unlocked : s.touch.locked = false) : TouchDone i s (s.setTable (classifyFrame rs s.touch.table).1)

/-- The errors of TES and where they are raised: a mild one with the unit as it was, but that `T.INIT` has cleared its
ready flag before; `ProtocolMismatch` in `T.INIT` only (R173, R299). -/
inductive TouchError (i : Instr) (s : State) : Error → State → Prop where
  | mild {e : Error} {s' : State} (mild : e.isMild = true) (calls : CallsOnly s s') : TouchError i s e s'
  | transport {s' : State} (only : TouchOnly s s') : TouchError i s (.transportError .touchUnit) s'
  | shortInit {s' : State} (op : i = .tInit) (only : TouchOnly s s') (ready : s'.tReady = false) :
      TouchError i s .outOfRange s'
  | mismatch {s' : State} (op : i = .tInit) (only : TouchOnly s s') : TouchError i s .protocolMismatch s'

/-- How a TES operation ends. -/
def TouchEnds {α : Type} (i : Instr) (s : State) (x : Res α) : Prop :=
  x.ends (fun s' => ∃ s1, TouchDone i s s1 ∧ CallsOnly s1 s') (TouchError i s)

/-- An operation that does no more than call the touch controller. -/
theorem touchEnds_of_calls {α : Type} {i : Instr} {s : State} {x : Res α}
    (h : x.ends (CallsOnly s) fun e s' => (e = .transportError .touchUnit ∨ e = .outOfRange) ∧ CallsOnly s s') :
    TouchEnds i s x := by
  refine ends_mono h (fun s' h' => ⟨s, .keep, h'⟩) ?_
  rintro e s' ⟨rfl | rfl, h'⟩
  · exact .transport h'.touchOnly
  · exact .mild rfl h'

theorem touchEnds_gate {α : Type} {i : Instr} {s : State} {φ : Prop} {x : Res Unit} {k : Unit → State → Res α}
    (hx : Gate s φ x) (hk : φ → TouchEnds i s (k () s)) : TouchEnds i s (x.bind k) := by
  refine ends_bind (P := fun s' => s' = s ∧ φ) (ends_mono hx (fun _ h => h) ?_) ?_
  · rintro e s' ⟨hm, rfl⟩
    exact .mild hm (.refl _)
  · rintro ⟨⟩ s' ⟨rfl, hφ⟩
    exact hk hφ

theorem touchEnds_silent {i : Instr} {s : State} {x : Res Unit} (h : TouchEnds i s x) : TouchEnds i s x.silent :=
  silent_ends h

theorem touchEnds_readAccess (i : Instr) (reg : BitVec 16) (n : Nat) (s : State) :
    TouchEnds i s (readAccess reg n s) :=
  touchEnds_of_calls (ends_bind (regReadExact_ends reg n s) fun _ _ h => h)

theorem touchEnds_regWrite (i : Instr) (reg : BitVec 16) (p : List Byte) (s : State) :
    TouchEnds i s (regWrite reg p s) :=
  touchEnds_of_calls (ends_mono (regWrite_ends reg p s) (fun _ h => h) fun _ _ h => ⟨.inl h.1, h.2⟩)

theorem touchEnds_cfg (s : State) :
    TouchEnds .tCfg s ((requireTouchReady s).bind fun _ s1 => withR (cfgWord s1.touch.cfg) s1) :=
  touchEnds_gate (gate_touchReady s) fun _ => ⟨s, .keep, .refl s⟩

theorem touchEnds_wait (tm : Timeout) (i : Instr) (s : State) :
    TouchEnds i s ((requireTouchReady s).bind fun _ s1 =>
      (touchWait tm s1).bind fun b s2 => withR ((BitVec.ofBool b).setWidth 64) s2) :=
  touchEnds_gate (gate_touchReady s) fun _ =>
    touchEnds_of_calls (ends_bind (touchWait_ends _ s _) fun _ _ h => h)

theorem touchEnds_lock (s : State) : TouchEnds .tLock s (lockTouch s) := by
  refine touchEnds_gate (gate_touchReady s) fun _ => ?_
  refine ends_bind (P := CallsOnly s) (ends_mono (regWrite_ends _ _ s) (fun _ h => h) ?_) fun _ s1 h1 => ?_
  · rintro e s' ⟨rfl, h⟩
    exact .transport h.touchOnly
  · obtain ⟨_, _, _, rfl⟩ := h1
    exact ⟨_, .lock rfl, _, _, _, rfl⟩

/-! `T.POLL` (R176 to R186): the update by which each of its branches goes on. -/

/-- Where a part of a poll goes on: one of the updates of `T.POLL`, and calls. -/
def PollGoesOn {α : Type} (s : State) (x : Res α) : Prop :=
  x.ends (fun s' => ∃ s1, TouchDone .tPoll s s1 ∧ CallsOnly s1 s') fun _ _ => True

/-- Calls before one of the updates do not change which update it is. -/
theorem TouchDone.after_calls {i : Instr} {s s1 s2 : State} (h1 : CallsOnly s s1) (h2 : TouchDone i s1 s2) :
    ∃ s3, TouchDone i s s3 ∧ CallsOnly s3 s2 := by
  obtain ⟨tr, an, d, rfl⟩ := h1
  cases h2 with
  | keep => exact ⟨_, .keep, _, _, _, rfl⟩
  | start c op => exact ⟨_, .start c op, _, _, _, rfl⟩
  | lock op => exact ⟨_, .lock op, _, _, _, rfl⟩
  | unlock op => exact ⟨_, .unlock op, _, _, _, rfl⟩
  | releaseAll op => exact ⟨_, .releaseAll op, _, _, _, rfl⟩
  | frame rs op count unlocked => exact ⟨_, .frame rs op count unlocked, _, _, _, rfl⟩

theorem PollGoesOn.after_calls {α : Type} {s s1 : State} {x : Res α} (h1 : CallsOnly s s1) (hx : PollGoesOn s1 x) :
    PollGoesOn s x := by
  refine ends_mono hx ?_ fun _ _ h => h
  rintro s' ⟨s2, h2, h'⟩
  obtain ⟨s3, h3, h3'⟩ := h2.after_calls h1
  exact ⟨s3, h3, h3'.trans h'⟩

theorem pollGoesOn_bind {α β : Type} {s : State} {x : Res α} {k : α → State → Res β} {Q : Error → State → Prop}
    (hx : x.ends (CallsOnly s) Q) (hk : ∀ a s1, CallsOnly s s1 → PollGoesOn s1 (k a s1)) : PollGoesOn s (x.bind k) :=
  ends_bind (ends_mono hx (fun _ h => h) fun _ _ _ => trivial) fun a s1 h1 => (hk a s1 h1).after_calls h1

theorem pollGoesOn_calls {α : Type} {s : State} {a : α} {s' : State} (h : CallsOnly s s') :
    PollGoesOn s (.ok a s') := ⟨s, .keep, h⟩

/-- `LockedPoll()` unlocks with an empty table, or leaves the unit as it is (R177). -/
theorem lockedPoll_goesOn (s : State) : PollGoesOn s (lockedPoll s) := by
  refine pollGoesOn_bind (regReadByte_ends _ s) fun status s1 _ => ?_
  split
  · rw [touchResetSequence_eq]
    exact ⟨_, .unlock rfl, _, _, _, rfl⟩
  · exact pollGoesOn_bind (regWrite_ends _ _ s1) fun _ s2 _ => pollGoesOn_calls (.refl s2)

/-- A valid frame is classified against the table (R182 to R186). -/
theorem framePoll_goesOn (count : Nat) (hc : count ≤ touchMaxCount) (s : State) (hl : s.touch.locked = false) :
    PollGoesOn s (framePoll count s) := by
  refine pollGoesOn_bind (regRead_ends _ _ s) fun frame s1 h1 => ?_
  obtain ⟨_, _, _, rfl⟩ := h1
  cases hrs : parseFrame count frame with
  | none => trivial
  | some rs =>
    simp only [fieldOr, bind_ok]
    split
    · exact ⟨_, .frame rs rfl ((parseFrame_length hrs).trans_le hc) hl, _, _, _, rfl⟩
    · trivial

/-- Steps 3 to 7 leave the unit as it is, release everything, or classify a frame (R178 to R186). -/
theorem unlockedPoll_goesOn (s : State) (hl : s.touch.locked = false) : PollGoesOn s (unlockedPoll s) := by
  refine pollGoesOn_bind (regReadByte_ends _ s) fun status s1 h1 => ?_
  obtain ⟨_, _, _, rfl⟩ := h1
  split
  · exact pollGoesOn_calls (.refl _)
  · refine pollGoesOn_bind (regWrite_ends _ _ _) fun _ s2 h2 => ?_
    obtain ⟨_, _, _, rfl⟩ := h2
    dsimp only
    split
    · exact ⟨_, .releaseAll rfl, _, _, _, rfl⟩
    · exact framePoll_goesOn _ (by omega) _ hl

theorem pollTouch_goesOn (s : State) : PollGoesOn s (pollTouch s) := by
  unfold pollTouch requireTouchReady
  split
  · simp only [bind_ok]
    refine pollGoesOn_bind (touchWait_ends _ s fun _ _ => True) fun pending s1 _ => ?_
    split
    · exact pollGoesOn_calls (.refl s1)
    · cases hl : s1.touch.locked with
      | true => exact lockedPoll_goesOn s1
      | false => exact unlockedPoll_goesOn s1 hl
  · trivial

theorem touchEnds_poll (s : State) : TouchEnds .tPoll s (pollTouch s) := by
  refine ends_mono (ends_and (pollTouch_goesOn s) (pollTouch_ends s)) (fun _ h => h.1) ?_
  rintro e s' ⟨-, rfl | rfl | rfl, hcalls⟩
  · exact .mild rfl hcalls
  · exact .transport hcalls.touchOnly
  · exact .mild rfl hcalls

theorem touchEnds_pollResult (s : State) :
    TouchEnds .tPoll s
      ((pollTouch s).bind fun es s1 =>
        (.ok ⟨some (BitVec.ofNat 64 es.length), some (eventBytes es)⟩ s1 : Res Results)) :=
  ends_bind (touchEnds_poll s) fun _ _ h => h

/-! `T.INIT` (R173). -/

/-- `T.INIT` while it runs: not ready, the table empty and the lock cleared by `ResetSequence()`. -/
def InitRunning (s s' : State) : Prop :=
  TouchOnly s s' ∧ s'.tReady = false ∧ s'.touch.table = [] ∧ s'.touch.locked = false

theorem InitRunning.calls {s s1 s2 : State} (h : InitRunning s s1) (h' : CallsOnly s1 s2) : InitRunning s s2 := by
  obtain ⟨honly, hready, htable, hlocked⟩ := h
  refine ⟨honly.trans h'.touchOnly, ?_⟩
  obtain ⟨_, _, _, rfl⟩ := h'
  exact ⟨hready, htable, hlocked⟩

theorem InitRunning.setCfg {s s1 : State} (h : InitRunning s s1) (c : TouchConfig) : InitRunning s (s1.setCfg c) := by
  obtain ⟨honly, hready, htable, hlocked⟩ := h
  exact ⟨honly.trans ⟨_, _, _, _, _, rfl⟩, hready, htable, hlocked⟩

theorem touchError_of_initRunning {s s' : State} (h : InitRunning s s') {e : Error}
    (he : e = .transportError .touchUnit ∨ e = .outOfRange) : TouchError .tInit s e s' := by
  obtain ⟨honly, hready, -⟩ := h
  rcases he with rfl | rfl
  · exact .transport honly
  · exact .shortInit rfl honly hready

theorem touchEnds_init (s : State) : TouchEnds .tInit s (initTouch s) := by
  unfold initTouch
  rw [touchResetSequence_eq, bind_ok]
  generalize hs1 : State.setLocked _ false = s1
  have h1 : InitRunning s s1 := by
    subst hs1
    exact ⟨⟨_, _, _, _, _, rfl⟩, rfl, rfl, rfl⟩
  refine ends_bind (P := InitRunning s) (ends_mono (regReadExact_ends _ _ s1) (fun _ h => h1.calls h)
    fun e s' h => touchError_of_initRunning (h1.calls h.2) h.1) fun ident s2 h2 => ?_
  split
  · exact .mismatch rfl h2.1
  · refine ends_bind (P := InitRunning s) (ends_mono (regRead_ends _ _ s2) (fun _ h => h2.calls h)
      fun e s' h => touchError_of_initRunning (h2.calls h.2) (.inl h.1)) fun answer s3 h3 => ?_
    refine ends_bind (P := InitRunning s) (ends_mono (readConfig_ends answer s3) ?_ ?_) fun _ s4 h4 => ?_
    · rintro s' ⟨c, rfl⟩
      exact h3.setCfg c
    · rintro e s' ⟨rfl, c, rfl⟩
      exact touchError_of_initRunning (h3.setCfg c) (.inr rfl)
    · obtain ⟨⟨⟨table, cfg, locked⟩, _, _, _, _, rfl⟩, -, htable, hlocked⟩ := h4
      subst htable hlocked
      exact ⟨_, .start cfg rfl, _, _, _, rfl⟩

end Sys2Proof.Machine
end

section
/-! What an ERS operation can do: the scheduler's effect on the refresh state as functions on it (43_eink_scheduler.md
R252, R253), and the one update by which each operation goes on. -/

namespace Sys2Proof.Machine

/-- Only ERS and the environment differ. -/
def PanelOnly (s s' : State) : Prop :=
  ∃ pu rd tr an d, s' = { s with panel := pu, eReady := rd, trace := tr, answers := an, drawn := d }

theorem CallsOnly.panelOnly {s s' : State} (h : CallsOnly s s') : PanelOnly s s' := by
  obtain ⟨tr, an, d, rfl⟩ := h
  exact ⟨s.panel, s.eReady, tr, an, d, rfl⟩

theorem PanelOnly.trans {a b c : State} (h1 : PanelOnly a b) (h2 : PanelOnly b c) : PanelOnly a c := by
  obtain ⟨_, _, _, _, _, rfl⟩ := h1
  obtain ⟨pu, rd, tr, an, d, rfl⟩ := h2
  exact ⟨pu, rd, tr, an, d, rfl⟩

/-! A piece of the scheduler as a move of the refresh state. -/

/-- A piece goes on with the refresh state `p` and only calls the panel otherwise, or one of these calls fails. -/
def PanelTo (s : State) (p : PanelUnit) (x : Res Unit) : Prop :=
  x.ends (CallsOnly { s with panel := p }) fun e s' => e = .transportError .panelUnit ∧ PanelOnly s s'

theorem panelTo_set (s : State) (p : PanelUnit) : PanelTo s p (.ok () { s with panel := p }) := .refl _

/-- The refresh state a piece finds is set before it. -/
theorem PanelTo.after_set {s : State} {p q : PanelUnit} {x : Res Unit} (h : PanelTo { s with panel := q } p x) :
    PanelTo s p x :=
  ends_mono h (fun _ h => h) fun _ _ h => ⟨h.1, PanelOnly.trans ⟨q, _, _, _, _, rfl⟩ h.2⟩

theorem PanelTo.after_calls {s s1 : State} {p : PanelUnit} {x : Res Unit} (h1 : CallsOnly s s1)
    (h : PanelTo s1 p x) : PanelTo s p x := by
  refine ends_mono h (fun s' h' => ?_) fun _ _ h' => ⟨h'.1, h1.panelOnly.trans h'.2⟩
  obtain ⟨_, _, _, rfl⟩ := h1
  exact CallsOnly.trans ⟨_, _, _, rfl⟩ h'

theorem PanelPiece.panelTo {q : State → Res Unit} (h : PanelPiece q) (s : State) : PanelTo s s.panel (q s) :=
  ends_mono (h s) (fun _ h' => h') fun _ _ h' => ⟨h'.1, h'.2.panelOnly⟩

theorem PanelTo.bind {s : State} {p p' : PanelUnit} {x : Res Unit} {k : Unit → State → Res Unit}
    (hx : PanelTo s p x) (hk : ∀ s1, s1.panel = p → PanelTo s1 p' (k () s1)) : PanelTo s p' (x.bind k) := by
  refine ends_bind hx fun _ s1 h1 => PanelTo.after_set (q := p) (PanelTo.after_calls h1 (hk s1 ?_))
  obtain ⟨_, _, _, rfl⟩ := h1
  rfl

/-! Uploads (R250). -/

/-- What `post_upload` does to the refresh state (R253). -/
def afterPost (p : PanelUnit) : PanelUnit :=
  if p.refreshMode = .fullMode ∨ p.autoRefreshMode = .noPolicy then p
  else if p.autoRefreshing = true then { p with partialRefreshCount := 0, autoRefreshing := false }
  else { p with partialRefreshCount := p.partialRefreshCount + 1 }

/-- What `pre_upload` does to the refresh state, the white upload of a ClearToWhite cycle included (R252). -/
def afterPre (p : PanelUnit) : PanelUnit :=
  if startsCycle p = false ∨ p.autoRefreshing = true then p
  else if p.autoRefreshMode = .fullRefresh then { p with autoRefreshing := true }
  else afterPost { p with autoRefreshing := true }

theorem postUpload_panelTo (s : State) : PanelTo s (afterPost s.panel) (postUpload s) := by
  by_cases hfull : s.panel.refreshMode = .fullMode
  · simp only [afterPost, hfull, true_or, if_true, postUpload_full s hfull]
    exact (panelPiece_refreshDisplay _).panelTo s
  have hpart : s.panel.refreshMode = .partialMode := by
    cases hm : s.panel.refreshMode
    · rfl
    · exact absurd hm hfull
  by_cases hnone : s.panel.autoRefreshMode = .noPolicy
  · simp only [afterPost, hnone, or_true, if_true, postUpload_noPolicy s hpart hnone]
    exact (panelPiece_refreshDisplay _).panelTo s
  have hpolicy : ¬ (s.panel.refreshMode = .fullMode ∨ s.panel.autoRefreshMode = .noPolicy) :=
    not_or.mpr ⟨hfull, hnone⟩
  rw [afterPost, if_neg hpolicy]
  cases hr : s.panel.autoRefreshing with
  | false =>
    rw [if_neg Bool.false_ne_true, postUpload_count s hpart hnone hr]
    refine ((panelPiece_refreshDisplay _).panelTo s).bind fun s1 h1 => ?_
    rw [← hr, ← h1]
    exact panelTo_set s1 _
  | true =>
    rw [if_pos rfl]
    cases hp : s.panel.autoRefreshMode with
    | noPolicy => exact absurd hp hnone
    | fullRefresh =>
      rw [postUpload_endFullRefresh s hpart hp hr]
      refine ((panelPiece_refreshDisplay _).panelTo s).bind fun s1 h1 => ?_
      refine PanelTo.after_set (q := { s1.panel with partialRefreshCount := 0, autoRefreshing := false }) ?_
      rw [← hp, ← h1]
      exact (panelPiece_applyConfig _).panelTo _
    | clearToWhite =>
      rw [postUpload_endClearToWhite s hpart hp hr]
      refine ((panelPiece_refreshDisplay _).panelTo s).bind fun s1 h1 => ?_
      rw [← hp, ← h1]
      exact panelTo_set s1 _

/-- The white upload of a ClearToWhite cycle, which is a whole upload of its own (R252). -/
theorem nestedClear_panelTo (s : State) (h : s.panel.autoRefreshing = true) :
    PanelTo s (afterPost s.panel) (nestedClear s) := by
  simp only [nestedClear, uploadWith, inOrder_cons, preUploadWith_refreshing _ s h, bind_ok]
  refine PanelTo.bind ((panelPiece_uploadFull _).panelTo s) fun s1 h1 => ?_
  rw [← inOrder_cons, inOrder_singleton, ← h1]
  exact postUpload_panelTo s1

theorem preUpload_panelTo (s : State) : PanelTo s (afterPre s.panel) (preUpload s) := by
  by_cases hidle : startsCycle s.panel = false ∨ s.panel.autoRefreshing = true
  · simp only [afterPre, hidle, if_true, preUpload_idle s hidle]
    exact panelTo_set s s.panel
  simp only [afterPre, hidle, if_false]
  obtain ⟨hstarts, hr⟩ := not_or.mp hidle
  rw [Bool.not_eq_false] at hstarts
  rw [Bool.not_eq_true] at hr
  by_cases hp : s.panel.autoRefreshMode = .fullRefresh
  · rw [if_pos hp, preUpload_fullRefresh s hstarts hr hp]
    exact PanelTo.after_set ((panelPiece_applyConfig _).panelTo (s.setAutoRefreshing true))
  · have hwhite : s.panel.autoRefreshMode = .clearToWhite := by
      cases hq : s.panel.autoRefreshMode with
      | clearToWhite => rfl
      | fullRefresh => exact absurd hq hp
      | noPolicy => simp [startsCycle, hq] at hstarts
    rw [if_neg hp, preUpload_clearToWhite s hstarts hr hwhite]
    exact PanelTo.after_set (nestedClear_panelTo (s.setAutoRefreshing true) rfl)

/-- One upload operation (R250): `pre_upload`, the body, `post_upload`. -/
theorem uploadWith_panelTo {body : State → Res Unit} (hb : PanelPiece body) (s : State) :
    PanelTo s (afterPost (afterPre s.panel)) (uploadWith preUpload body s) := by
  simp only [uploadWith, inOrder_cons]
  refine (preUpload_panelTo s).bind fun s1 h1 => ?_
  refine (hb.panelTo s1).bind fun s2 h2 => ?_
  rw [← inOrder_cons, inOrder_singleton, ← h1, ← h2]
  exact postUpload_panelTo s2

/-- Between operations an upload moves nothing but the counter, as the table of R262 has it. -/
theorem afterPost_afterPre (p : PanelUnit) (h : p.autoRefreshing = false) :
    afterPost (afterPre p) = panelAfterUpload p := by
  obtain ⟨mode, policy, count, budget, refreshing, w, hgt⟩ := p
  cases h
  cases mode with
  | fullMode => simp [afterPre, afterPost, panelAfterUpload, counterAfter, startsCycle]
  | partialMode =>
    by_cases hb : budget.toNat ≤ count.toNat <;>
      cases policy <;> simp [afterPre, afterPost, panelAfterUpload, counterAfter, startsCycle, hb]

/-! The updates of ERS. -/

/-- The updates of ERS by which an instruction may go on (42_eink_sequencer.md, 43_eink_scheduler.md), environment
calls aside. -/
inductive PanelDone (i : Instr) (s : State) : State → Prop where
  | keep : PanelDone i s s
  | start (w h : BitVec 16) (op : i = .eInit w h) (hw : w ≠ 0) (hh : h ≠ 0) :
      PanelDone i s { s with panel := initialPanel s.par w h, eReady := true }
  | setSize (w h : BitVec 16) (op : i = .eSetsize w h) (hw : w ≠ 0) (hh : h ≠ 0) : PanelDone i s (s.setSize w h)
  | setPartialMode (op : i = .eSetmodeP) : PanelDone i s (s.setRefreshMode .partialMode)
  | setFullMode (op : i = .eSetmodeF) : PanelDone i s ((s.setRefreshMode .fullMode).setPartialCount 0)
  | setAuto (p : RefreshPolicy) (op : i = setautoOf p) : PanelDone i s (s.setAutoRefreshMode p)
  | setMax (n : BitVec 32) (op : i = .eSetmax n) : PanelDone i s (s.setMaxPartial n)
  | upload (op : isUpload i = true) : PanelDone i s { s with panel := afterPost (afterPre s.panel) }

/-- The errors of ERS and where they are raised: a mild one before anything has happened. -/
inductive PanelError (s : State) : Error → State → Prop where
  | mild {e : Error} (mild : e.isMild = true) : PanelError s e s
  | transport {s' : State} (only : PanelOnly s s') : PanelError s (.transportError .panelUnit) s'

/-- How an ERS operation ends. -/
def PanelEnds {α : Type} (i : Instr) (s : State) (x : Res α) : Prop :=
  x.ends (fun s' => ∃ s1, PanelDone i s s1 ∧ CallsOnly s1 s') (PanelError s)

theorem panelEnds_gate {α : Type} {i : Instr} {s : State} {φ : Prop} {x : Res Unit} {k : Unit → State → Res α}
    (hx : Gate s φ x) (hk : φ → PanelEnds i s (k () s)) : PanelEnds i s (x.bind k) := by
  refine ends_bind (P := fun s' => s' = s ∧ φ) (ends_mono hx (fun _ h => h) ?_) ?_
  · rintro e s' ⟨hm, rfl⟩
    exact .mild hm
  · rintro ⟨⟩ s' ⟨rfl, hφ⟩
    exact hk hφ

theorem panelEnds_silent {i : Instr} {s : State} {x : Res Unit} (h : PanelEnds i s x) : PanelEnds i s x.silent :=
  silent_ends h

theorem panelEnds_of_panelTo {i : Instr} {s : State} {p : PanelUnit} {x : Res Unit} (hx : PanelTo s p x)
    (hd : PanelDone i s { s with panel := p }) : PanelEnds i s x := by
  refine ends_mono hx (fun s' h => ⟨_, hd, h⟩) ?_
  rintro e s' ⟨rfl, h⟩
  exact .transport h

/-- An operation that does no more than call the panel. -/
theorem panelEnds_piece (i : Instr) {q : State → Res Unit} (hq : PanelPiece q) (s : State) : PanelEnds i s (q s) :=
  panelEnds_of_panelTo (hq.panelTo s) .keep

theorem panelEnds_sendCmd (i : Instr) (op : Byte) (payload : List Byte) (s : State) :
    PanelEnds i s (sendCmd op payload s) := panelEnds_piece i (panelPiece_sendCmd op payload) s

theorem panelEnds_geometry (s : State) :
    PanelEnds .eGeom s ((requirePanelReady s).bind fun _ s1 => withR (geometryWord s1.panel) s1) :=
  panelEnds_gate (gate_panelReady s) fun _ => ⟨s, .keep, .refl s⟩

theorem panelEnds_powerOff (s : State) :
    PanelEnds .ePoweroff s (inOrder [requirePanelReady, sendCmd 0x10 [0x01]] s) := by
  refine panelEnds_gate (gate_panelReady s) fun _ => ?_
  rw [inOrder_singleton]
  exact panelEnds_sendCmd _ _ _ s

theorem panelEnds_setSize (w h : BitVec 16) (s : State) :
    PanelEnds (.eSetsize w h) s (inOrder [requirePanelReady, requireSize w h, fun s1 => .ok () (s1.setSize w h)] s) :=
  panelEnds_gate (gate_panelReady s) fun _ => panelEnds_gate (gate_size w h s) fun ⟨hw, hh⟩ =>
    ⟨_, .setSize w h rfl hw hh, .refl _⟩

theorem panelEnds_setAuto (p : RefreshPolicy) (s : State) : PanelEnds (setautoOf p) s (setAuto p s) :=
  panelEnds_gate (gate_panelReady s) fun _ => ⟨_, .setAuto p rfl, .refl _⟩

theorem panelEnds_setMax (n : BitVec 32) (s : State) :
    PanelEnds (.eSetmax n) s (inOrder [requirePanelReady, fun s1 => .ok () (s1.setMaxPartial n)] s) :=
  panelEnds_gate (gate_panelReady s) fun _ => ⟨_, .setMax n rfl, .refl _⟩

/-- `apply_config` after the refresh state is set. -/
theorem panelTo_applyConfig (m : RefreshMode) (s : State) (p : PanelUnit) :
    PanelTo s p (inOrder [applyConfig m] { s with panel := p }) := by
  rw [inOrder_singleton]
  exact PanelTo.after_set ((panelPiece_applyConfig m).panelTo { s with panel := p })

theorem panelEnds_setPartialMode (s : State) : PanelEnds .eSetmodeP s (setMode .partialMode s) :=
  panelEnds_gate (gate_panelReady s) fun _ => panelEnds_of_panelTo (panelTo_applyConfig _ s _) (.setPartialMode rfl)

theorem panelEnds_setFullMode (s : State) : PanelEnds .eSetmodeF s (setMode .fullMode s) :=
  panelEnds_gate (gate_panelReady s) fun _ => panelEnds_of_panelTo (panelTo_applyConfig _ s _) (.setFullMode rfl)

theorem panelEnds_upload {i : Instr} (hi : isUpload i = true) {body : State → Res Unit} (hb : PanelPiece body)
    (s : State) : PanelEnds i s (uploadWith preUpload body s) :=
  panelEnds_of_panelTo (uploadWith_panelTo hb s) (.upload hi)

theorem panelEnds_rawFb (din : List Byte) (s : State) :
    PanelEnds (.eRawfb din) s (inOrder [requirePanelReady, rawFb din] s) := by
  refine panelEnds_gate (gate_panelReady s) fun _ => ?_
  rw [inOrder_singleton]
  exact panelEnds_upload rfl (panelPiece_uploadFull din) s

theorem panelEnds_clear (i : Instr) (hi : isUpload i = true) (toBlack : Bool) (s : State) :
    PanelEnds i s (inOrder [requirePanelReady, clearPanel toBlack] s) := by
  refine panelEnds_gate (gate_panelReady s) fun _ => ?_
  rw [inOrder_singleton]
  exact panelEnds_upload hi (panelPiece_uploadFull _) s

theorem panelEnds_putBitmap (px py : BitVec 32) (bw bh : BitVec 16) (din : List Byte) (s : State) :
    PanelEnds (.ePutbmp px py bw bh din) s
      (inOrder
        [requirePanelReady,
         requireBitmap bw bh din,
         requireOffsets px.toInt py.toInt bw bh,
         uploadWith preUpload (uploadBitmap px.toInt py.toInt bw bh din)] s) := by
  refine panelEnds_gate (gate_panelReady s) fun _ => ?_
  refine panelEnds_gate (gate_bitmap bw bh din s) fun _ => ?_
  refine panelEnds_gate (gate_offsets px.toInt py.toInt bw bh s) fun _ => ?_
  rw [inOrder_singleton]
  exact panelEnds_upload rfl (panelPiece_uploadBitmap _ _ bw bh din) s

/-- `E.INIT` (R217): it raises before anything happens, or runs not ready until `apply_config` has succeeded. -/
theorem panelEnds_init (w h : BitVec 16) (s : State) : PanelEnds (.eInit w h) s (initPanel w h s) := by
  refine panelEnds_gate (gate_size w h s) fun ⟨hw, hh⟩ => ?_
  simp only [inOrder_cons, emitAll, bind_ok]
  generalize hs1 : ({ List.foldl State.emit (s.setEReady false) configRecords with panel := _ } : State) = s1
  have h1 : CallsOnly { s with panel := initialPanel s.par w h, eReady := false } s1 := by
    subst hs1
    exact ⟨_, _, _, rfl⟩
  refine ends_bind (P := CallsOnly { s with panel := initialPanel s.par w h, eReady := false })
    (ends_mono ((panelPiece_applyConfig .partialMode).ends _ s1 h1) (fun _ h' => h') ?_) fun _ s2 h2 => ?_
  · rintro e s' ⟨rfl, h'⟩
    exact .transport (PanelOnly.trans ⟨_, _, _, _, _, rfl⟩ h'.panelOnly)
  · obtain ⟨_, _, _, rfl⟩ := h2
    exact ⟨_, .start w h rfl hw hh, _, _, _, rfl⟩

end Sys2Proof.Machine
end

section
/-! The next state of every instruction, by the unit it belongs to, and what the statements of 10_state.md read off
it. -/

namespace Sys2Proof.Machine

/-- TES after a TES instruction: a failure has cleared the ready flag, or the unit has made one of its updates. -/
inductive TouchNext (i : Instr) (s t : State) : Prop where
  | failed (ready : t.tReady = false) (how : t.st = 1 ∨ i = .tInit)
  | done (s1 : State) (update : TouchDone i s s1) (same : SameTouch s1 t)

/-- ERS after an ERS instruction. -/
inductive PanelNext (i : Instr) (s t : State) : Prop where
  | failed (ready : t.eReady = false) (how : t.st = 1)
  | done (s1 : State) (update : PanelDone i s s1) (same : SamePanel s1 t)

/-- The next state of an instruction: its unit as said above, the other two units as before. -/
inductive UnitNext (i : Instr) (s t : State) : Prop where
  | codec (unit : unitOf i = .bbc) (touch : SameTouch s t) (panel : SamePanel s t) (host : SameHost s t)
      (calls : t.trace = s.trace ∧ t.answers = s.answers) (inv : s.bufferInv → t.bufferInv)
  | touch (unit : unitOf i = .tes) (codec : SameCodec s t) (panel : SamePanel s t) (host : SameHost s t)
      (next : TouchNext i s t)
  | panel (unit : unitOf i = .ers) (codec : SameCodec s t) (touch : SameTouch s t) (host : SameHost s t)
      (next : PanelNext i s t)

/-! From where an operation ends to its next state: presenting and raising. -/

theorem CodecEnds.next {i : Instr} {s t : State} {x : Res Results} (hu : unitOf i = .bbc) (hx : CodecEnds s x)
    (h : x.complete = .next t) : UnitNext i s t := by
  refine next_of_ends hx ?_ ?_ h
  · rintro s' res ⟨⟨_, _, _, rfl⟩, hinv⟩
    exact .codec hu ⟨rfl, rfl⟩ ⟨rfl, rfl⟩ ⟨rfl, rfl⟩ ⟨rfl, rfl⟩ hinv
  · rintro e s' ⟨hm, rfl⟩
    rw [State.raise_of_mild _ e hm]
    exact .codec hu ⟨rfl, rfl⟩ ⟨rfl, rfl⟩ ⟨rfl, rfl⟩ ⟨rfl, rfl⟩ id

theorem TouchDone.touchOnly {i : Instr} {s s1 : State} (h : TouchDone i s s1) : TouchOnly s s1 := by
  cases h <;> exact ⟨_, _, _, _, _, rfl⟩

theorem PanelDone.panelOnly {i : Instr} {s s1 : State} (h : PanelDone i s s1) : PanelOnly s s1 := by
  cases h <;> exact ⟨_, _, _, _, _, rfl⟩

theorem TouchEnds.next {i : Instr} {s t : State} {x : Res Results} (hu : unitOf i = .tes) (hx : TouchEnds i s x)
    (h : x.complete = .next t) : UnitNext i s t := by
  refine next_of_ends hx ?_ ?_ h
  · rintro s' res ⟨s1, hd, hcalls⟩
    obtain ⟨_, _, _, _, _, rfl⟩ := hd.touchOnly
    obtain ⟨_, _, _, rfl⟩ := hcalls
    exact .touch hu ⟨rfl, rfl, rfl⟩ ⟨rfl, rfl⟩ ⟨rfl, rfl⟩ (.done _ hd ⟨rfl, rfl⟩)
  · intro e s' he
    cases he with
    | mild hm hcalls =>
      obtain ⟨_, _, _, rfl⟩ := hcalls
      rw [State.raise_of_mild _ e hm]
      exact .touch hu ⟨rfl, rfl, rfl⟩ ⟨rfl, rfl⟩ ⟨rfl, rfl⟩ (.done s .keep ⟨rfl, rfl⟩)
    | transport honly =>
      obtain ⟨_, _, _, _, _, rfl⟩ := honly
      exact .touch hu ⟨rfl, rfl, rfl⟩ ⟨rfl, rfl⟩ ⟨rfl, rfl⟩ (.failed rfl (.inl rfl))
    | shortInit hi honly hready =>
      obtain ⟨_, _, _, _, _, rfl⟩ := honly
      exact .touch hu ⟨rfl, rfl, rfl⟩ ⟨rfl, rfl⟩ ⟨rfl, rfl⟩ (.failed hready (.inr hi))
    | mismatch hi honly =>
      obtain ⟨_, _, _, _, _, rfl⟩ := honly
      exact .touch hu ⟨rfl, rfl, rfl⟩ ⟨rfl, rfl⟩ ⟨rfl, rfl⟩ (.failed rfl (.inr hi))

theorem PanelEnds.next {i : Instr} {s t : State} {x : Res Results} (hu : unitOf i = .ers) (hx : PanelEnds i s x)
    (h : x.complete = .next t) : UnitNext i s t := by
  refine next_of_ends hx ?_ ?_ h
  · rintro s' res ⟨s1, hd, hcalls⟩
    obtain ⟨_, _, _, _, _, rfl⟩ := hd.panelOnly
    obtain ⟨_, _, _, rfl⟩ := hcalls
    exact .panel hu ⟨rfl, rfl, rfl⟩ ⟨rfl, rfl⟩ ⟨rfl, rfl⟩ (.done _ hd ⟨rfl, rfl⟩)
  · intro e s' he
    cases he with
    | mild hm =>
      rw [State.raise_of_mild _ e hm]
      exact .panel hu ⟨rfl, rfl, rfl⟩ ⟨rfl, rfl⟩ ⟨rfl, rfl⟩ (.done s .keep ⟨rfl, rfl⟩)
    | transport honly =>
      obtain ⟨_, _, _, _, _, rfl⟩ := honly
      exact .panel hu ⟨rfl, rfl, rfl⟩ ⟨rfl, rfl⟩ ⟨rfl, rfl⟩ (.failed rfl rfl)

/-- Every instruction ends as an operation of its unit does. -/
theorem exec_unitNext {i : Instr} {s t : State} (h : exec i s = .next t) : UnitNext i s t := by
  cases i with
  | bTobe1 | bTobe2 | bTobe4 | bTobe8 | bTole1 | bTole2 | bTole4 | bTole8 | bTell | bDump =>
    exact (codecEnds_result _ s).next rfl h
  | bWrapLe | bWrapBe => exact (codecEnds_wrapBuffer _ _ s).next rfl h
  | bRead1 | bRead2 | bRead4 | bRead8 => exact (codecEnds_readBuffer _ s).next rfl h
  | bWrite1 | bWrite2 | bWrite4 | bWrite8 => exact (codecEnds_writeBuffer _ _ s).next rfl h
  | bSeekBeg | bSeekCur | bSeekEnd => exact (codecEnds_seekBuffer _ _ s).next rfl h
  | tInit => exact (touchEnds_silent (touchEnds_init s)).next rfl h
  | tCfg => exact (touchEnds_cfg s).next rfl h
  | tLock => exact (touchEnds_silent (touchEnds_lock s)).next rfl h
  | tWait => exact (touchEnds_wait _ _ s).next rfl h
  | tPoll => exact (touchEnds_pollResult s).next rfl h
  | touchIdRead | touchConfigRead | touchStatusRead | touchFrameRead | touchLockstatusRead =>
    exact (touchEnds_readAccess _ _ _ s).next rfl h
  | touchStatusAck | touchLockctlWrite | touchLockstatusAck =>
    exact (touchEnds_silent (touchEnds_regWrite _ _ _ s)).next rfl h
  | eInit w h' => exact (panelEnds_silent (panelEnds_init w h' s)).next rfl h
  | eSetsize w h' => exact (panelEnds_silent (panelEnds_setSize w h' s)).next rfl h
  | eGeom => exact (panelEnds_geometry s).next rfl h
  | eSetmodeP => exact (panelEnds_silent (panelEnds_setPartialMode s)).next rfl h
  | eSetmodeF => exact (panelEnds_silent (panelEnds_setFullMode s)).next rfl h
  | eSetautoNone => exact (panelEnds_silent (panelEnds_setAuto .noPolicy s)).next rfl h
  | eSetautoFull => exact (panelEnds_silent (panelEnds_setAuto .fullRefresh s)).next rfl h
  | eSetautoWhite => exact (panelEnds_silent (panelEnds_setAuto .clearToWhite s)).next rfl h
  | eSetmax n => exact (panelEnds_silent (panelEnds_setMax n s)).next rfl h
  | eClearW | eClearB => exact (panelEnds_silent (panelEnds_clear _ rfl _ s)).next rfl h
  | eRawfb din => exact (panelEnds_silent (panelEnds_rawFb din s)).next rfl h
  | ePutbmp px py bw bh din => exact (panelEnds_silent (panelEnds_putBitmap px py bw bh din s)).next rfl h
  | ePoweroff => exact (panelEnds_silent (panelEnds_powerOff s)).next rfl h
  | epdDriverOutputControl =>
    exact (panelEnds_silent (panelEnds_piece _ panelPiece_sendDriverOutputControl s)).next rfl h
  | epdDataInputMode => exact (panelEnds_silent (panelEnds_piece _ panelPiece_sendDataInputMode s)).next rfl h
  | epdDeepSleep | epdSoftReset | epdTemperatureSource | epdBeginUpdate | epdDisplayUpdateControl1
  | epdDisplayUpdateControl2 | epdUploadImageData | epdBorderWaveformControl | epdDrawRegionX | epdDrawRegionY
  | epdDrawOffsetX | epdDrawOffsetY =>
    exact (panelEnds_silent (panelEnds_sendCmd _ _ _ s)).next rfl h

/-- Settles O33: the unit of the instruction decides which of the units can have moved. -/
theorem unitsAreIsolated : Obligations.UnitsAreIsolated := by
  unfold Obligations.UnitsAreIsolated
  intro i s t h
  cases exec_unitNext h with
  | codec unit touch panel host calls _ =>
    exact ⟨fun hu => absurd unit hu, fun _ => touch, fun _ => panel, fun _ => calls, host⟩
  | touch unit codec panel host _ =>
    have hbbc : unitOf i ≠ .bbc := by simp [unit]
    exact ⟨fun _ => codec, fun hu => absurd unit hu, fun _ => panel, fun hu => absurd hu hbbc, host⟩
  | panel unit codec touch host _ =>
    have hbbc : unitOf i ≠ .bbc := by simp [unit]
    exact ⟨fun _ => codec, fun _ => touch, fun hu => absurd unit hu, fun hu => absurd hu hbbc, host⟩

/-! A step over the request port (R12). -/

/-- A step is idle, runs the decoded instruction, or ends a reserved word in `IllegalOp` (R96). -/
theorem step_eq_next {s t : State} (h : step s = .next t) :
    t = s ∨ ∃ rest,
      (∃ i, exec i { s with requests := rest } = .next t) ∨ t = ({ s with requests := rest }).raise .illegalOp := by
  cases hreq : s.requests with
  | nil =>
    rw [step_of_requests_nil hreq] at h
    cases h
    exact .inl rfl
  | cons q rest =>
    refine .inr ⟨rest, ?_⟩
    cases hdec : decode q with
    | ok i => exact .inl ⟨i, step_of_decode_ok hreq hdec ▸ h⟩
    | error e =>
      simp only [step, fetch_of_requests_cons hreq, hdec, rejectRequest] at h
      split at h
      · cases h
        exact .inr rfl
      · cases h
      · cases h

/-- What does not depend on the request port or the result ports, and what every instruction keeps, every step keeps. -/
theorem step_keeps {Inv : State → Prop} (hrequests : ∀ s rest, Inv s → Inv { s with requests := rest })
    (hports : ∀ s code res, Inv s → Inv (s.setPorts code res))
    (hexec : ∀ i s t, Inv s → exec i s = .next t → Inv t) {s t : State} (hs : Inv s) (h : step s = .next t) :
    Inv t := by
  rcases step_eq_next h with rfl | ⟨rest, ⟨i, hi⟩ | rfl⟩
  · exact hs
  · exact hexec i _ _ (hrequests s rest hs) hi
  · exact hports _ _ _ (hrequests s rest hs)

theorem bufferInv_congr {s t : State} (hc : SameCodec s t) (hh : SameHost s t) (h : s.bufferInv) : t.bufferInv := by
  obtain ⟨hbuf, hcur, -⟩ := hc
  obtain ⟨hpar, -⟩ := hh
  rwa [State.bufferInv, hbuf, hcur, hpar]

theorem touchInv_congr {s t : State} (h : SameTouch s t) (hs : s.touchInv) : t.touchInv := by
  obtain ⟨htouch, hready⟩ := h
  rwa [State.touchInv, htouch, hready]

theorem panelInv_congr {s t : State} (h : SamePanel s t) (hs : s.panelInv) : t.panelInv := by
  obtain ⟨hpanel, hready⟩ := h
  rwa [State.panelInv, hpanel, hready]

theorem exec_keeps_bufferInv (i : Instr) (s t : State) (hs : s.bufferInv) (h : exec i s = .next t) : t.bufferInv := by
  cases exec_unitNext h with
  | codec _ _ _ _ _ inv => exact inv hs
  | touch _ codec _ host _ => exact bufferInv_congr codec host hs
  | panel _ codec _ host _ => exact bufferInv_congr codec host hs

/-- Settles O58: `CodecEnds` carries R23 through BBC, and no other unit moves what it speaks of. -/
theorem stepKeepsTheBufferInvariant : Obligations.StepKeepsTheBufferInvariant := by
  unfold Obligations.StepKeepsTheBufferInvariant
  intro s t hs h
  exact step_keeps (Inv := State.bufferInv) (fun _ _ h => h) (fun _ _ _ h => h) exec_keeps_bufferInv hs h

/-! The Track Table (R30). -/

/-- Every entry stands under its own id as Touch or Drag. -/
def EntriesOk (t : List (BitVec 8 × TouchEvent)) : Prop :=
  ∀ p ∈ t, p.2.touchId = p.1 ∧ (p.2.kind = .touch ∨ p.2.kind = .drag)

/-- The ids are in ascending order. -/
def Ascending (t : List (BitVec 8 × TouchEvent)) : Prop := (tableIds t).Pairwise fun i j => i.toNat < j.toNat

theorem mem_tableSet {i : BitVec 8} {e : TouchEvent} {t : List (BitVec 8 × TouchEvent)} {p : BitVec 8 × TouchEvent}
    (h : p ∈ tableSet i e t) : p = (i, e) ∨ p ∈ t := by
  induction t with
  | nil => exact .inl (List.mem_singleton.mp h)
  | cons q t ih =>
    obtain ⟨j, d⟩ := q
    simp only [tableSet] at h
    split at h
    · exact List.mem_cons.mp h
    · split at h
      · exact (List.mem_cons.mp h).imp_right (List.mem_cons_of_mem _)
      · rcases List.mem_cons.mp h with rfl | h
        · exact .inr (List.mem_cons_self ..)
        · exact (ih h).imp_right (List.mem_cons_of_mem _)

theorem tableSet_entriesOk {r : TouchRecord} {k : EventKind} (hk : k = .touch ∨ k = .drag)
    {t : List (BitVec 8 × TouchEvent)} (h : EntriesOk t) : EntriesOk (tableSet r.touchId (eventOf k r) t) := by
  intro p hp
  rcases mem_tableSet hp with rfl | hp
  · exact ⟨rfl, hk⟩
  · exact h p hp

/-- One record leaves the table as it is or stores its event as Touch or Drag (R183 to R185). -/
theorem classifyRecord_table (r : TouchRecord) (acc : List (BitVec 8 × TouchEvent) × List (BitVec 8)) :
    (classifyRecord r acc).1 = acc.1 ∨
      ∃ k, (k = .touch ∨ k = .drag) ∧ (classifyRecord r acc).1 = tableSet r.touchId (eventOf k r) acc.1 := by
  unfold classifyRecord
  split
  · split
    · exact .inr ⟨.drag, .inr rfl, rfl⟩
    · exact .inl rfl
  · exact .inr ⟨.touch, .inl rfl, rfl⟩

theorem classifyRecord_keeps (r : TouchRecord) (acc : List (BitVec 8 × TouchEvent) × List (BitVec 8))
    (h : Ascending acc.1 ∧ EntriesOk acc.1) :
    Ascending (classifyRecord r acc).1 ∧ EntriesOk (classifyRecord r acc).1 := by
  obtain ⟨hasc, hok⟩ := h
  rcases classifyRecord_table r acc with heq | ⟨k, hk, heq⟩ <;> rw [heq]
  · exact ⟨hasc, hok⟩
  · exact ⟨tableSet_ascending _ _ _ hasc, tableSet_entriesOk hk hok⟩

theorem classifyRecords_keeps (rs : List TouchRecord) (t : List (BitVec 8 × TouchEvent))
    (h : Ascending t ∧ EntriesOk t) :
    Ascending (classifyRecords rs t).1 ∧ EntriesOk (classifyRecords rs t).1 :=
  List.foldlRecOn (motive := fun acc => Ascending acc.1 ∧ EntriesOk acc.1) rs _ h fun acc hacc r _ =>
    classifyRecord_keeps r acc hacc

theorem Ascending.nodup {t : List (BitVec 8 × TouchEvent)} (h : Ascending t) : (tableIds t).Nodup :=
  List.Pairwise.imp (fun hlt heq => absurd (congrArg BitVec.toNat heq) hlt.ne) h

/-- After a frame the table holds ids of the frame only, each once: never more than the frame has records (R186). -/
theorem classifyFrame_tableInv (rs : List TouchRecord) (hrs : rs.length ≤ touchMaxCount)
    (t : List (BitVec 8 × TouchEvent)) (h : tableInv t) : tableInv (classifyFrame rs t).1 := by
  obtain ⟨-, hasc, hok⟩ := h
  obtain ⟨hasc', hok'⟩ := classifyRecords_keeps rs t ⟨hasc, hok⟩
  have hsub : (classifyFrame rs t).1.Sublist (classifyRecords rs t).1 := List.filter_sublist
  have hasc'' : Ascending (classifyFrame rs t).1 := List.Pairwise.sublist (hsub.map Prod.fst) hasc'
  have hids : tableIds (classifyFrame rs t).1 ⊆ rs.map TouchRecord.touchId := by
    intro j hj
    obtain ⟨p, hp, rfl⟩ := List.mem_map.mp hj
    simpa using (List.mem_filter.mp hp).2
  have hlen : (classifyFrame rs t).1.length ≤ rs.length := by
    simpa [tableIds] using (hasc''.nodup.subperm hids).length_le
  exact ⟨hlen.trans hrs, hasc'', fun p hp => hok' p (hsub.subset hp)⟩

theorem tableInv_nil : tableInv [] := by simp [tableInv, tableIds]

/-- Every update of TES keeps R30. -/
theorem TouchDone.keeps_touchInv {i : Instr} {s s1 : State} (hd : TouchDone i s s1) (hs : s.touchInv) :
    s1.touchInv := by
  cases hd with
  | keep => exact hs
  | start => exact fun _ => ⟨tableInv_nil, fun _ => rfl⟩
  | lock => exact fun _ => ⟨tableInv_nil, fun _ => rfl⟩
  | unlock => exact fun _ => ⟨tableInv_nil, fun _ => rfl⟩
  | releaseAll => exact fun _ => ⟨tableInv_nil, fun _ => rfl⟩
  | frame rs _ count unlocked =>
    intro hready
    obtain ⟨htable, -⟩ := hs hready
    refine ⟨classifyFrame_tableInv rs count _ htable, fun hl => ?_⟩
    exact absurd (unlocked.symm.trans hl) Bool.false_ne_true

theorem exec_keeps_touchInv (i : Instr) (s t : State) (hs : s.touchInv) (h : exec i s = .next t) : t.touchInv := by
  cases exec_unitNext h with
  | codec _ touch _ _ _ _ => exact touchInv_congr touch hs
  | panel _ _ touch _ _ => exact touchInv_congr touch hs
  | touch _ _ _ _ next =>
    cases next with
    | failed ready _ => exact fun hready => absurd (ready.symm.trans hready) Bool.false_ne_true
    | done s1 update same => exact touchInv_congr same (update.keeps_touchInv hs)

/-- Settles O59: every update of TES keeps R30, and a failure leaves the unit not ready. -/
theorem stepKeepsTheTouchInvariant : Obligations.StepKeepsTheTouchInvariant := by
  unfold Obligations.StepKeepsTheTouchInvariant
  intro s t hs h
  exact step_keeps (Inv := State.touchInv) (fun _ _ h => h) (fun _ _ _ h => h) exec_keeps_touchInv hs h

/-! The refresh state (R36, R37). -/

theorem counterAfter_fullMode (p : PanelUnit) (h : p.refreshMode = .fullMode) :
    counterAfter p = p.partialRefreshCount := by simp [counterAfter, h]

/-- Every update of ERS keeps R36 and R37. -/
theorem PanelDone.keeps_panelInv {i : Instr} {s s1 : State} (hd : PanelDone i s s1) (hs : s.panelInv) :
    s1.panelInv := by
  cases hd with
  | keep => exact hs
  | start w h _ hw hh => exact fun _ => ⟨rfl, fun _ => rfl, hw, hh⟩
  | setSize w h _ hw hh =>
    intro hready
    obtain ⟨hcycle, hcount, -⟩ := hs hready
    exact ⟨hcycle, hcount, hw, hh⟩
  | setPartialMode =>
    intro hready
    obtain ⟨hcycle, -, hsize⟩ := hs hready
    exact ⟨hcycle, fun hm => RefreshMode.noConfusion hm, hsize⟩
  | setFullMode =>
    intro hready
    obtain ⟨hcycle, -, hsize⟩ := hs hready
    exact ⟨hcycle, fun _ => rfl, hsize⟩
  | setAuto => exact hs
  | setMax => exact hs
  | upload =>
    intro hready
    obtain ⟨hcycle, hcount, hsize⟩ := hs hready
    simp only [afterPost_afterPre s.panel hcycle]
    exact ⟨hcycle, fun hm => (counterAfter_fullMode s.panel hm).trans (hcount hm), hsize⟩

theorem exec_keeps_panelInv (i : Instr) (s t : State) (hs : s.panelInv) (h : exec i s = .next t) : t.panelInv := by
  cases exec_unitNext h with
  | codec _ _ panel _ _ _ => exact panelInv_congr panel hs
  | touch _ _ panel _ _ => exact panelInv_congr panel hs
  | panel _ _ _ _ next =>
    cases next with
    | failed ready _ => exact fun hready => absurd (ready.symm.trans hready) Bool.false_ne_true
    | done s1 update same => exact panelInv_congr same (update.keeps_panelInv hs)

/-- Settles O60: every update of ERS keeps R36 and R37, an upload because it ends the cycle it starts, and a failure
leaves the unit not ready. -/
theorem stepKeepsThePanelInvariant : Obligations.StepKeepsThePanelInvariant := by
  unfold Obligations.StepKeepsThePanelInvariant
  intro s t hs h
  exact step_keeps (Inv := State.panelInv) (fun _ _ h => h) (fun _ _ _ h => h) exec_keeps_panelInv hs h

/-! The writers of each field (R26 to R28, R31 to R37). -/

/-- The fields of TES between two of its states, by instruction. -/
def TouchFieldsByWriter (i : Instr) (u v : TouchUnit) : Prop :=
  i ≠ .tInit → v.cfg = u.cfg ∧
    (i ≠ .tPoll → i ≠ .tLock → v.table = u.table ∧ v.locked = u.locked) ∧
    (i ≠ .tLock → v.locked = true → u.locked = true)

/-- The fields of ERS between two of its states, by instruction. -/
def PanelFieldsByWriter (i : Instr) (p q : PanelUnit) : Prop :=
  (∀ w h, i ≠ .eInit w h) →
    (i ≠ .eSetmodeP → i ≠ .eSetmodeF → q.refreshMode = p.refreshMode) ∧
    ((∀ a, i ≠ setautoOf a) → q.autoRefreshMode = p.autoRefreshMode) ∧
    ((∀ n, i ≠ .eSetmax n) → q.maxPartialRefreshes = p.maxPartialRefreshes) ∧
    ((∀ w h, i ≠ .eSetsize w h) → q.width = p.width ∧ q.height = p.height) ∧
    (isUpload i = false → q.autoRefreshing = p.autoRefreshing ∧
      (i ≠ .eSetmodeF → q.partialRefreshCount = p.partialRefreshCount))

theorem touchFieldsByWriter_refl (i : Instr) (u : TouchUnit) : TouchFieldsByWriter i u u :=
  fun _ => ⟨rfl, fun _ _ => ⟨rfl, rfl⟩, fun _ hl => hl⟩

theorem panelFieldsByWriter_refl (i : Instr) (p : PanelUnit) : PanelFieldsByWriter i p p :=
  fun _ => ⟨fun _ _ => rfl, fun _ => rfl, fun _ => rfl, fun _ => ⟨rfl, rfl⟩, fun _ => ⟨rfl, fun _ => rfl⟩⟩

theorem TouchDone.fieldsByWriter {i : Instr} {s s1 : State} (hd : TouchDone i s s1) :
    TouchFieldsByWriter i s.touch s1.touch := by
  intro hinit
  cases hd with
  | keep => exact touchFieldsByWriter_refl i s.touch hinit
  | start c op => exact absurd op hinit
  | lock op => exact ⟨rfl, fun _ hlock => absurd op hlock, fun hlock => absurd op hlock⟩
  | unlock op => exact ⟨rfl, fun hpoll => absurd op hpoll, fun _ hl => absurd hl Bool.false_ne_true⟩
  | releaseAll op => exact ⟨rfl, fun hpoll => absurd op hpoll, fun _ hl => hl⟩
  | frame rs op => exact ⟨rfl, fun hpoll => absurd op hpoll, fun _ hl => hl⟩

/-- `post_upload` writes the counter and ends the cycle, and nothing else (R253). -/
theorem afterPost_eq_update (p : PanelUnit) :
    ∃ n b, afterPost p = { p with partialRefreshCount := n, autoRefreshing := b } := by
  unfold afterPost
  split
  · exact ⟨_, _, rfl⟩
  · split
    · exact ⟨_, _, rfl⟩
    · exact ⟨_, _, rfl⟩

theorem afterPre_eq_update (p : PanelUnit) :
    ∃ n b, afterPre p = { p with partialRefreshCount := n, autoRefreshing := b } := by
  unfold afterPre
  split
  · exact ⟨_, _, rfl⟩
  · split
    · exact ⟨_, _, rfl⟩
    · exact afterPost_eq_update { p with autoRefreshing := true }

theorem afterUpload_fieldsByWriter {i : Instr} (hi : isUpload i = true) (p : PanelUnit) :
    PanelFieldsByWriter i p (afterPost (afterPre p)) := by
  obtain ⟨n, b, hpre⟩ := afterPre_eq_update p
  obtain ⟨n', b', hpost⟩ := afterPost_eq_update (afterPre p)
  rw [hpost, hpre]
  intro _
  exact ⟨fun _ _ => rfl, fun _ => rfl, fun _ => rfl, fun _ => ⟨rfl, rfl⟩,
    fun hno => absurd (hi.symm.trans hno) Bool.noConfusion⟩

theorem PanelDone.fieldsByWriter {i : Instr} {s s1 : State} (hd : PanelDone i s s1) :
    PanelFieldsByWriter i s.panel s1.panel := by
  intro hinit
  cases hd with
  | keep => exact panelFieldsByWriter_refl i s.panel hinit
  | start w h op => exact absurd op (hinit w h)
  | setSize w h op =>
    exact ⟨fun _ _ => rfl, fun _ => rfl, fun _ => rfl, fun hsize => absurd op (hsize w h), fun _ => ⟨rfl, fun _ => rfl⟩⟩
  | setPartialMode op =>
    exact ⟨fun hp => absurd op hp, fun _ => rfl, fun _ => rfl, fun _ => ⟨rfl, rfl⟩, fun _ => ⟨rfl, fun _ => rfl⟩⟩
  | setFullMode op =>
    exact ⟨fun _ hf => absurd op hf, fun _ => rfl, fun _ => rfl, fun _ => ⟨rfl, rfl⟩,
      fun _ => ⟨rfl, fun hf => absurd op hf⟩⟩
  | setAuto a op =>
    exact ⟨fun _ _ => rfl, fun hauto => absurd op (hauto a), fun _ => rfl, fun _ => ⟨rfl, rfl⟩,
      fun _ => ⟨rfl, fun _ => rfl⟩⟩
  | setMax n op =>
    exact ⟨fun _ _ => rfl, fun _ => rfl, fun hmax => absurd op (hmax n), fun _ => ⟨rfl, rfl⟩,
      fun _ => ⟨rfl, fun _ => rfl⟩⟩
  | upload op => exact afterUpload_fieldsByWriter op s.panel hinit

theorem TouchNext.fieldsByWriter {i : Instr} {s t : State} (h : TouchNext i s t) (hst : t.st ≠ 1) :
    TouchFieldsByWriter i s.touch t.touch := by
  cases h with
  | failed _ how => exact fun hinit => absurd (how.resolve_left hst) hinit
  | done s1 update same =>
    obtain ⟨htouch, -⟩ := same
    exact htouch ▸ update.fieldsByWriter

theorem PanelNext.fieldsByWriter {i : Instr} {s t : State} (h : PanelNext i s t) (hst : t.st ≠ 1) :
    PanelFieldsByWriter i s.panel t.panel := by
  cases h with
  | failed _ how => exact absurd how hst
  | done s1 update same =>
    obtain ⟨hpanel, -⟩ := same
    exact hpanel ▸ update.fieldsByWriter

/-- Settles O36: each update of TES and of ERS names the instruction that makes it. -/
theorem fieldsHaveTheirWriters : Obligations.FieldsHaveTheirWriters := by
  unfold Obligations.FieldsHaveTheirWriters
  intro i s t h hst
  show TouchFieldsByWriter i s.touch t.touch ∧ PanelFieldsByWriter i s.panel t.panel
  cases exec_unitNext h with
  | codec _ touch panel _ _ _ =>
    exact ⟨touch.1 ▸ touchFieldsByWriter_refl i _, panel.1 ▸ panelFieldsByWriter_refl i _⟩
  | touch _ _ panel _ next => exact ⟨next.fieldsByWriter hst, panel.1 ▸ panelFieldsByWriter_refl i _⟩
  | panel _ _ touch _ next => exact ⟨touch.1 ▸ touchFieldsByWriter_refl i _, next.fieldsByWriter hst⟩

/-- Settles O57: the buffer is empty at reset and neither unit is ready. -/
theorem resetMeetsTheInvariants : Obligations.ResetMeetsTheInvariants := by
  unfold Obligations.ResetMeetsTheInvariants
  have hbuffer : State.reset.bufferInv := ⟨rfl, Nat.le_refl 0, Nat.zero_le _⟩
  exact ⟨hbuffer, fun hready => absurd hready Bool.false_ne_true, fun hready => absurd hready Bool.false_ne_true⟩

end Sys2Proof.Machine
end

section
/-! Where the bytes of a written value stand, and the byte order (20_memory.md R62, 40_codec.md R142, R143). -/

namespace Sys2Proof.Machine

/-! The bytes of a value (R142). -/

theorem bytesLE_getElem? {n i : Nat} (v : Nat) (hi : i < n) :
    (bytesLE n v)[i]? = some (BitVec.ofNat 8 (v / 2 ^ (8 * i))) := by
  induction n generalizing v i with
  | zero => omega
  | succ n ih =>
    cases i with
    | zero => simp [bytesLE]
    | succ i =>
      have hdiv : v / 256 / 2 ^ (8 * i) = v / 2 ^ (8 * (i + 1)) := by
        rw [Nat.div_div_eq_div_mul, Nat.mul_succ, Nat.pow_add, Nat.mul_comm]
      rw [bytesLE, List.getElem?_cons_succ, ih (v / 256) (Nat.lt_of_succ_lt_succ hi), hdiv]

/-- The big order is the little one read from the last byte back. -/
theorem bytesOf_big_getElem? {n i : Nat} (v : Nat) (hi : i < n) :
    (bytesOf .big n v)[i]? = some (BitVec.ofNat 8 (v / 2 ^ (8 * (n - 1 - i)))) := by
  rw [bytesOf, List.getElem?_reverse (by rwa [bytesLE_length]), bytesLE_length, bytesLE_getElem? v (by omega)]

/-- A byte of a machine word, by division and as a bit field. -/
theorem ofNat_div_two_pow_eq_extractLsb' {w : Nat} (a : BitVec w) (k : Nat) :
    BitVec.ofNat 8 (a.toNat / 2 ^ k) = a.extractLsb' k 8 := by
  rw [BitVec.extractLsb', Nat.shiftRight_eq_div_pow]

/-- Only the low `n` bytes of a value are laid out. -/
theorem bytesLE_mod (n : Nat) : ∀ v, bytesLE n (v % 256 ^ n) = bytesLE n v := by
  induction n with
  | zero => intro v; rfl
  | succ n ih =>
    intro v
    have hlow : BitVec.ofNat 8 (v % 256 ^ (n + 1)) = BitVec.ofNat 8 v :=
      BitVec.eq_of_toNat_eq (Nat.mod_mod_of_dvd v (Dvd.intro_left (256 ^ n) rfl))
    have hrest : v % 256 ^ (n + 1) / 256 = v / 256 % 256 ^ n := by
      rw [Nat.pow_succ, Nat.mul_comm, Nat.mod_mul_right_div_self]
    rw [bytesLE, hlow, hrest, ih, bytesLE]

theorem bytesOf_mod (e : Endian) (n v : Nat) : bytesOf e n (v % 256 ^ n) = bytesOf e n v := by
  cases e <;> simp [bytesOf, bytesLE_mod]

/-! `B.WRITE` (R143). -/

theorem writeBuffer_mod (n v : Nat) (s : State) : writeBuffer n (v % 256 ^ n) s = writeBuffer n v s := by
  simp only [writeBuffer, bytesOf_mod]

/-- Each width of `B.WRITE` writes as many low bytes of port `A` as it is wide. -/
theorem exec_writeOf (sz : Fin 4) (a : BitVec 64) (s : State) :
    exec (writeOf sz a) s = (writeBuffer (widthOf sz) a.toNat s).complete := by
  rw [← writeBuffer_mod]
  have hlow (m : Nat) : (a.extractLsb' 0 m).toNat = a.toNat % 2 ^ m := by simp
  match sz with
  | 0 => exact congrArg (fun v => (writeBuffer 1 v s).complete) (hlow 8)
  | 1 => exact congrArg (fun v => (writeBuffer 2 v s).complete) (hlow 16)
  | 2 => exact congrArg (fun v => (writeBuffer 4 v s).complete) (hlow 32)
  | 3 => exact congrArg (fun v => (writeBuffer 8 v s).complete) (Nat.mod_eq_of_lt a.isLt).symm

/-- A write that ends with `ST` = 0 fitted, and left its bytes and the moved cursor. -/
theorem writeBuffer_next_of_st_zero {n v : Nat} {s t : State} (h : (writeBuffer n v s).complete = .next t)
    (hst : t.st = 0) :
    s.cur.toNat + n ≤ s.par.bufMax.toNat ∧
      t.buf = (growBuffer n s).memWrite s.cur.toNat (bytesOf s.bend n v) ∧
      t.cur = BitVec.ofNat 64 (s.cur.toNat + n) := by
  rcases writeBuffer_cases n v s with ⟨-, hw⟩ | ⟨hfit, hw⟩ <;> rw [hw] at h <;> cases h
  · exact absurd hst (by decide : errorCode .capacityExceeded ≠ 0)
  · exact ⟨hfit, rfl, rfl⟩

/-- Reading inside what a write at `cur <= len` has just put there. -/
theorem readByte_written {n i : Nat} (v : Nat) (s : State) (hc : s.cur.toNat ≤ s.buf.size) (hi : i < n) :
    ((growBuffer n s).memWrite s.cur.toNat (bytesOf s.bend n v)).readByte (s.cur.toNat + i) =
      (bytesOf s.bend n v)[i]? := by
  have hbelow : (s.buf.toBytes.take s.cur.toNat).length = s.cur.toNat := by simp [hc]
  rw [readByte_of_wf _ (memWrite_wf _ _ _), write_toBytes n v s hc, List.append_assoc,
    List.getElem?_append_right (by omega), hbelow, Nat.add_sub_cancel_left,
    List.getElem?_append_left (by rwa [bytesOf_length])]

theorem readByte_of_writeOf {sz : Fin 4} {a : BitVec 64} {s t : State} (hc : s.cur.toNat ≤ s.buf.size)
    (h : exec (writeOf sz a) s = .next t) (hst : t.st = 0) {i : Nat} (hi : i < widthOf sz) :
    t.buf.readByte (s.cur.toNat + i) = (bytesOf s.bend (widthOf sz) a.toNat)[i]? := by
  rw [exec_writeOf] at h
  obtain ⟨-, hbuf, -⟩ := writeBuffer_next_of_st_zero h hst
  rw [hbuf, readByte_written _ s hc hi]

/-! Who moves the byte order (R62). -/

/-- An operation keeps the byte order, however it ends. -/
def KeepsByteOrder (s : State) (x : Res Results) : Prop :=
  x.ends (fun s' => s'.bend = s.bend) fun _ s' => s'.bend = s.bend

theorem KeepsByteOrder.next {s t : State} {x : Res Results} (hx : KeepsByteOrder s x) (h : x.complete = .next t) :
    t.bend = s.bend :=
  next_of_ends (R := fun t => t.bend = s.bend) hx (fun _ _ h => h) (fun e s' h => (s'.raise_bend e).trans h) h

theorem keepsByteOrder_result (res : Results) (s : State) : KeepsByteOrder s (.ok res s) := rfl

theorem keepsByteOrder_readBuffer (n : Nat) (s : State) : KeepsByteOrder s (readBuffer n s) := by
  rcases readBuffer_cases n s with ⟨-, h⟩ | ⟨-, h⟩ <;> rw [h] <;> rfl

theorem keepsByteOrder_writeBuffer (n v : Nat) (s : State) : KeepsByteOrder s (writeBuffer n v s) := by
  rcases writeBuffer_cases n v s with ⟨-, h⟩ | ⟨-, h⟩ <;> rw [h] <;> rfl

theorem keepsByteOrder_seekBuffer (o : Origin) (off : BitVec 64) (s : State) :
    KeepsByteOrder s (seekBuffer o off s) := by
  rcases seekBuffer_cases o off s with ⟨-, h⟩ | ⟨-, -, h⟩ <;> rw [h] <;> rfl

/-- In BBC only the two forms of `B.WRAP` set the byte order. -/
theorem exec_bend_of_bbc {i : Instr} {s t : State} (hunit : unitOf i = .bbc)
    (hi : ∀ din, i ≠ .bWrapLe din ∧ i ≠ .bWrapBe din) (h : exec i s = .next t) : t.bend = s.bend := by
  cases i with
  | bTobe1 | bTobe2 | bTobe4 | bTobe8 | bTole1 | bTole2 | bTole4 | bTole8 | bTell | bDump =>
    exact (keepsByteOrder_result _ s).next h
  | bWrapLe din => exact absurd rfl (hi din).1
  | bWrapBe din => exact absurd rfl (hi din).2
  | bRead1 | bRead2 | bRead4 | bRead8 => exact (keepsByteOrder_readBuffer _ s).next h
  | bWrite1 | bWrite2 | bWrite4 | bWrite8 => exact (keepsByteOrder_writeBuffer _ _ s).next h
  | bSeekBeg | bSeekCur | bSeekEnd => exact (keepsByteOrder_seekBuffer _ _ s).next h
  | _ => cases hunit

theorem exec_bend {i : Instr} {s t : State} (hi : ∀ din, i ≠ .bWrapLe din ∧ i ≠ .bWrapBe din)
    (h : exec i s = .next t) : t.bend = s.bend := by
  cases exec_unitNext h with
  | codec unit _ _ _ _ _ => exact exec_bend_of_bbc unit hi h
  | touch _ codec _ _ _ | panel _ codec _ _ _ =>
    obtain ⟨-, -, hbend⟩ := codec
    exact hbend

/-- Settles O11: the bytes read back from the write, and the frame of the byte order over all instructions. -/
theorem byteOrderOfTheBuffer : Obligations.ByteOrderOfTheBuffer := by
  unfold Obligations.ByteOrderOfTheBuffer
  refine ⟨fun s t sz a hc h hst i hi => ?_, fun _ _ _ hi h => exec_bend hi h⟩
  rw [readByte_of_writeOf hc h hst hi]
  cases s.bend with
  | little => rw [bytesOf, bytesLE_getElem? _ hi, ofNat_div_two_pow_eq_extractLsb']
  | big => rw [bytesOf_big_getElem? _ hi, ofNat_div_two_pow_eq_extractLsb']

end Sys2Proof.Machine
end

section
/-! The touch register accesses at the grain of one primitive (20_memory.md R66, 30_encoding.md R100). -/

namespace Sys2Proof.Machine

/-- A register read that is answered with enough bytes: one call, its first `n` bytes on `DOUT`, nothing else moved. -/
theorem readAccess_next {reg : BitVec 16} {address : List Byte} (haddr : registerBytes reg = address) (n : Nat)
    (s : State) (bytes : List Byte) (rest : List (Option (List Byte)))
    (h : s.answers.regRead = some bytes :: rest) (hn : n ≤ bytes.length) :
    ∃ r d, (readAccess reg n s).complete =
      .next { s with
        st := 0, r := r, dout := bytes.take n, drawn := d
        trace := s.trace ++ [.i2cRead (touchDevAddr s.par) address n (some bytes)]
        answers := { s.answers with regRead := rest } } := by
  subst haddr
  refine withDout_next (t := (s.afterDraw { s.answers with regRead := rest }).emit (readRecord s.par reg n bytes)) ?_
  rw [readAccess, regReadExact_answered reg n s bytes rest h hn, bind_ok]

/-- A register write that succeeds: one call, nothing else moved. -/
theorem regWrite_next {reg : BitVec 16} {address : List Byte} (haddr : registerBytes reg = address)
    (payload : List Byte) (s : State) (rest : List Bool) (h : s.answers.regWrite = true :: rest) :
    ∃ r o d, (regWrite reg payload s).silent.complete =
      .next { s with
        st := 0, r := r, dout := o, drawn := d
        trace := s.trace ++ [.i2cWrite (touchDevAddr s.par) address payload true]
        answers := { s.answers with regWrite := rest } } := by
  subst haddr
  exact silent_next (regWrite_ok reg payload s rest h)

/-! The address bytes of R66, most significant first (R100). -/

theorem registerBytes_regId : registerBytes regId = [0x81, 0x40] := by decide
theorem registerBytes_regConfig : registerBytes regConfig = [0x80, 0x51] := by decide
theorem registerBytes_regTouchStatus : registerBytes regTouchStatus = [0x81, 0x4e] := by decide
theorem registerBytes_regLockControl : registerBytes regLockControl = [0x80, 0x40] := by decide
theorem registerBytes_regLockStatus : registerBytes regLockStatus = [0x81, 0x4c] := by decide

/-- Settles O55: each row is `readAccess_next` or `regWrite_next` at its register of R66. -/
theorem touchRegisterAccesses : Obligations.TouchRegisterAccesses := by
  unfold Obligations.TouchRegisterAccesses
  intro s reads writes
  have idRead : reads .touchIdRead [0x81, 0x40] 4 := readAccess_next registerBytes_regId 4 s
  have configRead : reads .touchConfigRead [0x80, 0x51] 5 := readAccess_next registerBytes_regConfig 5 s
  have statusRead : reads .touchStatusRead [0x81, 0x4e] 1 := readAccess_next registerBytes_regTouchStatus 1 s
  have frameRead (count : BitVec 4) : reads (.touchFrameRead count) [0x81, 0x4e] (1 + 8 * count.toNat) :=
    readAccess_next registerBytes_regTouchStatus _ s
  have lockRead : reads .touchLockstatusRead [0x81, 0x4c] 1 := readAccess_next registerBytes_regLockStatus 1 s
  have statusAck : writes .touchStatusAck [0x81, 0x4e] [0x00] := regWrite_next registerBytes_regTouchStatus _ s
  have lockctlWrite : writes .touchLockctlWrite [0x80, 0x40] [0x08, 0x00, 0xf8] :=
    regWrite_next registerBytes_regLockControl _ s
  have lockAck : writes .touchLockstatusAck [0x81, 0x4c] [0x00] := regWrite_next registerBytes_regLockStatus _ s
  exact ⟨idRead, configRead, statusRead, frameRead, lockRead, statusAck, lockctlWrite, lockAck⟩

end Sys2Proof.Machine
end


section
/-! The decoder and the encoder (30_encoding.md R92, R93, R96, R108; 20_memory.md R66): what each operand port gives
back, which row each of the three decoders answers, and the round trip. -/

namespace Sys2Proof.Machine

/-! Operands on their ports (R92). -/

/-- A narrow operand stands in the low bits of its port. -/
theorem extractLsb'_setWidth_port {m : Nat} (hm : m ≤ 64) (v : BitVec m) :
    (v.setWidth 64).extractLsb' 0 m = v := by
  rw [BitVec.extractLsb'_setWidth_of_le (by omega), BitVec.extractLsb'_eq_self]

theorem pairPort_low (lo hi : BitVec 16) : (pairPort lo hi).extractLsb' 0 16 = lo := by
  rw [pairPort, BitVec.extractLsb'_setWidth_of_le (by decide), BitVec.extractLsb'_append_eq_right]

theorem pairPort_high (lo hi : BitVec 16) : (pairPort lo hi).extractLsb' 16 16 = hi := by
  rw [pairPort, BitVec.extractLsb'_setWidth_of_le (by decide), BitVec.extractLsb'_append_eq_left]

/-- The coordinates of `E.PUTBMP` share port `A`, the column in the low half (R92). -/
theorem coordinatePort_low (px py : BitVec 32) : (py ++ px : BitVec 64).extractLsb' 0 32 = px :=
  BitVec.extractLsb'_append_eq_right

theorem coordinatePort_high (px py : BitVec 32) : (py ++ px : BitVec 64).extractLsb' 32 32 = py :=
  BitVec.extractLsb'_append_eq_left

theorem modeOfPort_portOfMode (mode : RefreshMode) : modeOfPort (portOfMode mode) = mode := by
  cases mode <;> rfl

/-! The rows the decoders answer (R93, R108, R66). -/

/-- `i` is encoded in channel `c` under the word `w`, and is well formed. -/
def IsRow (c : Channel) (w : BitVec 16) (i : Instr) : Prop :=
  (encode i).chan = c ∧ (encode i).word = w ∧ i.wellFormed = true

theorem encode_chan (i : Instr) : (encode i).chan = i.channel := by
  cases i <;> rfl

/-- What the operation map answers: a row of the word for a word of R93, an error for every other word. -/
theorem decodeHost_cases (cw : BitVec 16) (a b : BitVec 64) (din : List Byte) :
    (cw.toNat ∈ hostWords ∧ ∃ i, decodeHost cw a b din = .ok i ∧ IsRow .host cw i) ∨
      (cw.toNat ∉ hostWords ∧ ∃ e, decodeHost cw a b din = .error e) := by
  unfold decodeHost
  split
  case h_43 =>
    refine .inr ⟨?_, _, rfl⟩
    simp only [hostWords, List.mem_cons, List.not_mem_nil, or_false, not_or]
    and_intros <;> assumption
  all_goals
    next hw => exact .inl ⟨by rw [hw]; decide, _, rfl, rfl, BitVec.eq_of_toNat_eq hw.symm, rfl⟩

theorem decodeHost_isRow {cw : BitVec 16} {a b : BitVec 64} {din : List Byte} {i : Instr}
    (h : decodeHost cw a b din = .ok i) : IsRow .host cw i := by
  rcases decodeHost_cases cw a b din with ⟨-, j, hj, hrow⟩ | ⟨-, e, he⟩
  · cases h.symm.trans hj
    exact hrow
  · cases h.symm.trans he

theorem decodePanel_isRow {opcode : BitVec 16} {a : BitVec 64} {din : List Byte} {i : Instr}
    (h : decodePanel opcode a din = .ok i) : IsRow .panel opcode i := by
  unfold decodePanel at h
  split at h
  case h_15 => cases h
  all_goals
    next hw =>
      cases h
      exact ⟨rfl, BitVec.eq_of_toNat_eq hw.symm, rfl⟩

/-- Where several rows share a register the port tells them apart, and the count of a frame is checked (R66). -/
theorem decodeTouch_isRow {reg : BitVec 16} {a : BitVec 64} {i : Instr} (h : decodeTouch reg a = .ok i) :
    IsRow .touch reg i := by
  simp only [decodeTouch] at h
  split at h
  case h_1 hw | h_2 hw | h_3 hw =>
    cases h
    exact ⟨rfl, BitVec.eq_of_toNat_eq hw.symm, rfl⟩
  case h_4 hw =>
    have hreg : 0x814c = reg := BitVec.eq_of_toNat_eq hw.symm
    split at h <;> cases h <;> exact ⟨rfl, hreg, rfl⟩
  case h_5 hw =>
    have hreg : 0x814e = reg := BitVec.eq_of_toNat_eq hw.symm
    split at h
    · cases h
      exact ⟨rfl, hreg, rfl⟩
    split at h
    · cases h
      exact ⟨rfl, hreg, rfl⟩
    split at h
    case isTrue hcount =>
      cases h
      exact ⟨rfl, hreg, hcount⟩
    case isFalse => cases h
  case h_6 => cases h

/-- Settles O2, by the channel: each of the three decoders answers only rows of the word it was given. -/
theorem decodedWordIsItsRow : Obligations.DecodedWordIsItsRow := by
  unfold Obligations.DecodedWordIsItsRow
  rintro ⟨chan, word, a, b, din⟩ i h
  cases chan with
  | host => exact decodeHost_isRow h
  | panel => exact decodePanel_isRow h
  | touch => exact decodeTouch_isRow h

/-! The round trip. -/

@[simp] theorem decode_hostRequest (cw : BitVec 16) (a b : BitVec 64) (din : List Byte) :
    decode (hostRequest cw a b din) = decodeHost cw a b din := rfl

@[simp] theorem decode_panelRequest (opcode : BitVec 16) (a : BitVec 64) (din : List Byte) :
    decode (panelRequest opcode a din) = decodePanel opcode a din := rfl

@[simp] theorem decode_touchRequest (reg : BitVec 16) (a : BitVec 64) :
    decode (touchRequest reg a) = decodeTouch reg a := rfl

/-- The accesses of Touch status, by the acknowledge flag and the count on port `A` (R66). -/
theorem decodeTouch_touchStatus (a : BitVec 64) :
    decodeTouch 0x814e a =
      if a.getLsbD 0 then .ok .touchStatusAck
      else if a.extractLsb' 4 4 = 0 then .ok .touchStatusRead
      else if frameCountOk (a.extractLsb' 4 4) then .ok (.touchFrameRead (a.extractLsb' 4 4))
      else .error .badCount := rfl

/-- A frame's count is read back from above the acknowledge flag, which is clear, and is not the 0 that stands for the
status byte alone (R66). -/
theorem decode_encode_touchFrameRead {count : BitVec 4} (h : frameCountOk count = true) :
    decode (encode (.touchFrameRead count)) = .ok (.touchFrameRead count) := by
  have hack : ((count ++ (0 : BitVec 4)).setWidth 64).getLsbD 0 = false := by
    rw [BitVec.getLsbD_setWidth, BitVec.getLsbD_append]
    rfl
  have hcount : ((count ++ (0 : BitVec 4)).setWidth 64).extractLsb' 4 4 = count := by
    rw [BitVec.extractLsb'_setWidth_of_le (by decide), BitVec.extractLsb'_append_eq_left]
  have hne : count ≠ 0 := by
    rintro rfl
    exact absurd h (by decide)
  rw [encode, decode_touchRequest, decodeTouch_touchStatus, hack, hcount, if_neg Bool.false_ne_true, if_neg hne,
    if_pos h]

/-- Settles O1, by the operands of the row: none or whole ports, a narrow operand on a port, two on one port, a mode, or
the checked count of a frame. -/
theorem decodeInvertsEncode : Obligations.DecodeInvertsEncode := by
  unfold Obligations.DecodeInvertsEncode
  intro i hwf
  cases i with
  | bTobe1 v | bTobe2 v | bTobe4 v | bTole1 v | bTole2 v | bTole4 v | bWrite1 v | bWrite2 v | bWrite4 v | eSetmax v =>
    simp [encode, decodeHost, extractLsb'_setWidth_port]
  | epdDrawOffsetX v | epdDrawOffsetY v => simp [encode, decodePanel, extractLsb'_setWidth_port]
  | eInit w h | eSetsize w h => simp [encode, decodeHost, pairPort_low, pairPort_high]
  | epdDrawRegionX lo hi | epdDrawRegionY lo hi => simp [encode, decodePanel, pairPort_low, pairPort_high]
  | ePutbmp px py bw bh din =>
    simp [encode, decodeHost, pairPort_low, pairPort_high, coordinatePort_low, coordinatePort_high]
  | epdDisplayUpdateControl2 mode | epdBorderWaveformControl mode =>
    simp [encode, decodePanel, modeOfPort_portOfMode]
  | touchFrameRead count => exact decode_encode_touchFrameRead hwf
  | _ => rfl

/-! Reserved words (R96). -/

/-- A request that is no instruction is taken and rejected. -/
theorem step_of_decode_error {s : State} {q : Request} {rest : List Request} {e : DecodeError}
    (hreq : s.requests = q :: rest) (hdec : decode q = .error e) :
    step s = rejectRequest q { s with requests := rest } := by
  simp only [step, fetch_of_requests_cons hreq, hdec]

theorem decode_host_error {cw : BitVec 16} (h : cw.toNat ∉ hostWords) (a b : BitVec 64) (din : List Byte) :
    ∃ e, decode ⟨.host, cw, a, b, din⟩ = .error e := by
  rcases decodeHost_cases cw a b din with ⟨hmem, -⟩ | ⟨-, herr⟩
  · exact absurd hmem h
  · exact herr

theorem decode_host_ok {cw : BitVec 16} (h : cw.toNat ∈ hostWords) (a b : BitVec 64) (din : List Byte) :
    ∃ i, decode ⟨.host, cw, a, b, din⟩ = .ok i ∧ i.channel = .host := by
  rcases decodeHost_cases cw a b din with ⟨-, i, hi, hchan, -⟩ | ⟨hmem, -⟩
  · exact ⟨i, hi, (encode_chan i).symm.trans hchan⟩
  · exact absurd h hmem

/-- Settles O4: a word outside the operation map is rejected by the decoder, so the step raises `IllegalOp`. -/
theorem reservedWordsAreIllegal : Obligations.ReservedWordsAreIllegal := by
  unfold Obligations.ReservedWordsAreIllegal
  refine fun cw a b din => ⟨fun hcw s => ?_, fun hcw => decode_host_ok hcw a b din⟩
  obtain ⟨e, he⟩ := decode_host_error hcw a b din
  rw [step_of_decode_error (rest := s.requests) rfl he]
  exact raised_next (x := .raised .illegalOp s) rfl

/-! Sample words. -/

/-- A table row's bits, its ports zero, stand for every well-formed instruction they encode. -/
theorem decodeTableWord_of_encode {nbits w : Nat} {i : Instr} (hwf : i.wellFormed = true)
    (h : requestOfWord nbits w = encode i) : decodeTableWord nbits w = some i := by
  simp only [decodeTableWord, h, decodeInvertsEncode i hwf]

/-- Settles O3: six of the samples are rows that O1 reads back, the other is a reserved word. -/
theorem sampleWordsDecode : Obligations.SampleWordsDecode := by
  unfold Obligations.SampleWordsDecode
  have reserved : decodeTableWord 16 0x2503 = none := by
    obtain ⟨e, he⟩ := decode_host_error (cw := 0x2503) (by decide) 0 0 []
    have hq : requestOfWord 16 0x2503 = ⟨.host, 0x2503, 0, 0, []⟩ := by decide
    simp only [decodeTableWord, hq, he]
  exact ⟨decodeTableWord_of_encode rfl (by decide), decodeTableWord_of_encode rfl (by decide),
    decodeTableWord_of_encode rfl (by decide), decodeTableWord_of_encode rfl (by decide), reserved,
    decodeTableWord_of_encode rfl (by decide), decodeTableWord_of_encode rfl (by decide)⟩

end Sys2Proof.Machine
end

section
/-! Event words and panel commands as bytes (30_encoding.md R94, R95, R108; 42_eink_sequencer.md R211, R220, R221). -/

namespace Sys2Proof.Machine

/-- The low bytes of a machine word, least significant first, as its bit fields. -/
theorem bytesLE_eq_map_extractLsb' {w : Nat} (n : Nat) (a : BitVec w) :
    bytesLE n a.toNat = (List.range n).map fun k => a.extractLsb' (8 * k) 8 := by
  apply List.ext_getElem?
  intro k
  by_cases hk : k < n
  · rw [bytesLE_getElem? _ hk, ofNat_div_two_pow_eq_extractLsb', List.getElem?_map, List.getElem?_range hk,
      Option.map_some]
  · rw [List.getElem?_eq_none (by simpa using hk), List.getElem?_eq_none (by simpa using hk)]

theorem eventBytes_append (a b : List TouchEvent) : eventBytes (a ++ b) = eventBytes a ++ eventBytes b :=
  List.flatMap_append

theorem eventBytes_singleton (e : TouchEvent) :
    eventBytes [e] = (List.range 8).map fun k => (eventWord e).extractLsb' (8 * k) 8 :=
  (List.append_nil _).trans (bytesLE_eq_map_extractLsb' 8 (eventWord e))

/-- The kind's bits are the low ones of the word; its numbering takes three of the eight. -/
theorem eventWord_kindBits (e : TouchEvent) {start len : Nat} (h : start + len ≤ 8) :
    (eventWord e).extractLsb' start len = (kindCode e.kind).extractLsb' start len :=
  BitVec.extractLsb'_append_eq_of_add_le h

/-! The fields above the kind: each stands after those below it in the concatenation. -/

theorem eventWord_touchId (e : TouchEvent) : (eventWord e).extractLsb' 8 8 = e.touchId := by
  rw [eventWord, BitVec.extractLsb'_append_eq_of_le (by decide)]
  exact BitVec.extractLsb'_append_eq_right

theorem eventWord_x (e : TouchEvent) : (eventWord e).extractLsb' 16 16 = e.x := by
  rw [eventWord, BitVec.extractLsb'_append_eq_of_le (by decide), BitVec.extractLsb'_append_eq_of_le (by decide)]
  exact BitVec.extractLsb'_append_eq_right

theorem eventWord_y (e : TouchEvent) : (eventWord e).extractLsb' 32 16 = e.y := by
  rw [eventWord, BitVec.extractLsb'_append_eq_of_le (by decide), BitVec.extractLsb'_append_eq_of_le (by decide),
    BitVec.extractLsb'_append_eq_of_le (by decide)]
  exact BitVec.extractLsb'_append_eq_right

theorem eventWord_size (e : TouchEvent) : (eventWord e).extractLsb' 48 16 = e.size := by
  rw [eventWord, BitVec.extractLsb'_append_eq_of_le (by decide), BitVec.extractLsb'_append_eq_of_le (by decide),
    BitVec.extractLsb'_append_eq_of_le (by decide)]
  exact BitVec.extractLsb'_append_eq_left

/-- Settles O27: the word field by field, `DOUT` as the words' bytes in order, and the example of R95. -/
theorem eventWordLayout : Obligations.EventWordLayout := by
  unfold Obligations.EventWordLayout
  refine ⟨fun e => ⟨?kind, ?reserved, eventWord_touchId e, eventWord_x e, eventWord_y e, eventWord_size e,
    eventBytes_singleton e⟩, eventBytes_append, by decide⟩
  case kind =>
    rw [eventWord_kindBits e (by decide)]
    cases e.kind <;> rfl
  case reserved =>
    rw [eventWord_kindBits e (by decide)]
    cases e.kind <;> rfl

/-! Panel commands at the grain of one primitive (R108, R211). -/

/-- A command whose writes succeed: its records, and nothing else moved. -/
theorem sendCmd_next {op : Byte} {payload payload' : List Byte} (hp : payload = payload') (s : State)
    (hq : s.quietFor (cmdRecords op payload')) :
    ∃ r o d, (sendCmd op payload s).silent.complete =
      .next { s.ran (cmdRecords op payload') with st := 0, r := r, dout := o, drawn := d } := by
  subst hp
  exact silent_next (emits_sendCmd op payload s s (.refl s) hq)

theorem xByte_toNat (x : BitVec 16) : xByte x.toNat = x.extractLsb' 3 8 :=
  ofNat_div_two_pow_eq_extractLsb' x 3

theorem drawRegionXPayload_toNat (x0 x1 : BitVec 16) :
    drawRegionXPayload x0.toNat x1.toNat = [x0.extractLsb' 3 8, x1.extractLsb' 3 8] := by
  rw [drawRegionXPayload, xByte_toNat, xByte_toNat]

theorem drawOffsetXPayload_toNat (ox : BitVec 16) : drawOffsetXPayload ox.toNat = [ox.extractLsb' 3 8] := by
  rw [drawOffsetXPayload, xByte_toNat]

theorem drawOffsetYPayload_toNat (oy : BitVec 16) :
    drawOffsetYPayload oy.toNat = [oy.extractLsb' 0 8, oy.extractLsb' 8 8] :=
  bytesLE_eq_map_extractLsb' 2 oy

theorem drawRegionYPayload_toNat (y0 y1 : BitVec 16) :
    drawRegionYPayload y0.toNat y1.toNat =
      [y0.extractLsb' 0 8, y0.extractLsb' 8 8, y1.extractLsb' 0 8, y1.extractLsb' 8 8] :=
  congrArg₂ (· ++ ·) (bytesLE_eq_map_extractLsb' 2 y0) (bytesLE_eq_map_extractLsb' 2 y1)

/-- Settles O54: each row is `sendCmd_next` at its opcode, with the payload of R108. -/
theorem panelCommandsOnTheWire : Obligations.PanelCommandsOnTheWire := by
  unfold Obligations.PanelCommandsOnTheWire
  intro s sends
  have fixed (op : Byte) (payload : List Byte) := sendCmd_next (op := op) (rfl : payload = payload) s
  exact ⟨fixed _ _, fixed _ _, fixed _ _, fixed _ _, fixed _ _, fixed _ _, fixed _ _, fixed _ _, fixed _ _,
    fun data => fixed _ data, fixed _ _, fixed _ _,
    fun x0 x1 => sendCmd_next (drawRegionXPayload_toNat x0 x1) s,
    fun y0 y1 => sendCmd_next (drawRegionYPayload_toNat y0 y1) s,
    fun ox => sendCmd_next (drawOffsetXPayload_toNat ox) s,
    fun oy => sendCmd_next (drawOffsetYPayload_toNat oy) s⟩

end Sys2Proof.Machine
end

section
/-! Values and bytes (40_codec.md R142): the conversions as sums and as bit fields, each undoing the other, and through
either host order. -/

namespace Sys2Proof.Machine

/-! A value as a sum of its bytes. -/

theorem valLE_eq_sum (s : List Byte) :
    valLE s = ∑ i ∈ Finset.range s.length, (s.getD i 0).toNat * 2 ^ (8 * i) := by
  induction s with
  | nil => rfl
  | cons b s ih =>
    have hshift (i : Nat) : (s.getD i 0).toNat * 2 ^ (8 * (i + 1)) = 256 * ((s.getD i 0).toNat * 2 ^ (8 * i)) := by
      rw [Nat.mul_succ, Nat.pow_add]
      ring
    simp only [valLE, ih, List.length_cons, Finset.sum_range_succ', List.getD_cons_succ, List.getD_cons_zero, hshift,
      ← Finset.mul_sum]
    omega

/-- The big order weighs the same bytes from the last one back. -/
theorem valOf_big_eq_sum (s : List Byte) :
    valOf .big s = ∑ i ∈ Finset.range s.length, (s.getD i 0).toNat * 2 ^ (8 * (s.length - 1 - i)) := by
  rw [valOf, valLE_eq_sum, List.length_reverse, ← Finset.sum_range_reflect]
  refine Finset.sum_congr rfl fun i hi => ?_
  have hlt : i < s.length := Finset.mem_range.mp hi
  rw [List.getD_reverse _ (by omega), show s.length - 1 - (s.length - 1 - i) = i by omega]

/-! A value that fits its width. -/

theorem two_pow_eight_mul (n : Nat) : 2 ^ (8 * n) = 256 ^ n := Nat.pow_mul 2 8 n

theorem valOf_bytesOf_of_lt (e : Endian) {n v : Nat} (h : v < 2 ^ (8 * n)) : valOf e (bytesOf e n v) = v := by
  rw [valOf_bytesOf, Nat.mod_eq_of_lt (two_pow_eight_mul n ▸ h)]

/-! The source's words (R62): it converts where the two orders differ. -/

theorem valOf_reverse_of_ne {e host : Endian} (h : e ≠ host) (s : List Byte) : valOf host s.reverse = valOf e s := by
  match e, host, h with
  | .little, .big, _ => exact congrArg valLE (List.reverse_reverse s)
  | .big, .little, _ => rfl

theorem bytesOf_reverse_of_ne {e host : Endian} (h : e ≠ host) (n v : Nat) :
    (bytesOf host n v).reverse = bytesOf e n v := by
  match e, host, h with
  | .little, .big, _ => exact List.reverse_reverse _
  | .big, .little, _ => rfl

theorem valViaHost_eq_valOf (host e : Endian) (s : List Byte) : valViaHost host e s = valOf e s := by
  unfold valViaHost
  split
  · next h => rw [h]
  · next h => exact valOf_reverse_of_ne h s

theorem bytesViaHost_eq_bytesOf (host e : Endian) (n v : Nat) : bytesViaHost host e n v = bytesOf e n v := by
  unfold bytesViaHost
  split
  · next h => rw [h]
  · next h => exact bytesOf_reverse_of_ne h n v

/-- Settles O12: the sums, the bit fields and the two inverses, each by its lemma above or in the codec's laws. -/
theorem valueAndByteConversion : Obligations.ValueAndByteConversion := by
  unfold Obligations.ValueAndByteConversion
  have fields (n v : Nat) : ∀ i < n,
      (bytesOf .little n v)[i]? = some (BitVec.ofNat 8 (v / 2 ^ (8 * i))) ∧
      (bytesOf .big n v)[i]? = some (BitVec.ofNat 8 (v / 2 ^ (8 * (n - 1 - i)))) :=
    fun _ hi => ⟨bytesLE_getElem? v hi, bytesOf_big_getElem? v hi⟩
  exact ⟨fun s => ⟨valLE_eq_sum s, valOf_big_eq_sum s⟩,
    fun n v hv => ⟨fields n v, fun e => ⟨bytesOf_length e n v, valOf_bytesOf_of_lt e hv⟩⟩,
    bytesOf_valOf,
    fun host e s n v => ⟨valViaHost_eq_valOf host e s, bytesViaHost_eq_bytesOf host e n v⟩⟩

end Sys2Proof.Machine
end

section
/-! The operations of BBC (40_codec.md R140 to R149): which shared operation each row runs, and its next state on each
side of its one check. -/

namespace Sys2Proof.Machine

/-! The rows by their modifier (R91); `exec_writeOf` is the one of `B.WRITE`. -/

theorem exec_wrapOf (e : Endian) (din : List Byte) (s : State) :
    exec (wrapOf e din) s = (wrapBuffer e din s).complete := by
  cases e <;> rfl

theorem exec_readOf (sz : Fin 4) (s : State) : exec (readOf sz) s = (readBuffer (widthOf sz) s).complete := by
  match sz with
  | 0 | 1 | 2 | 3 => rfl

theorem exec_seekOf (org : Origin) (off : BitVec 64) (s : State) :
    exec (seekOf org off) s = (seekBuffer org off s).complete := by
  cases org <;> rfl

/-- An operand of `n` bytes taken from port `A` lays out the same bytes as the whole port (R92). -/
theorem withDout_port (e : Endian) (n : Nat) (a : BitVec 64) (s : State) :
    (withDout (bytesOf e n (a.extractLsb' 0 (8 * n)).toNat) s).complete =
      (withDout (bytesOf e n a.toNat) s).complete := by
  rw [BitVec.extractLsb'_toNat, Nat.shiftRight_zero, two_pow_eight_mul, bytesOf_mod]

theorem exec_tobeOf (sz : Fin 4) (a : BitVec 64) (s : State) :
    exec (tobeOf sz a) s = (withDout (bytesOf .big (widthOf sz) a.toNat) s).complete := by
  match sz with
  | 0 => exact withDout_port .big 1 a s
  | 1 => exact withDout_port .big 2 a s
  | 2 => exact withDout_port .big 4 a s
  | 3 => rfl

theorem exec_toleOf (sz : Fin 4) (a : BitVec 64) (s : State) :
    exec (toleOf sz a) s = (withDout (bytesOf .little (widthOf sz) a.toNat) s).complete := by
  match sz with
  | 0 => exact withDout_port .little 1 a s
  | 1 => exact withDout_port .little 2 a s
  | 2 => exact withDout_port .little 4 a s
  | 3 => rfl

/-! Next states. -/

theorem noResults_next {x : Res Results} {t : State} (h : x = .ok noResults t) :
    ∃ r o d, x.complete = .next { t with st := 0, r := r, dout := o, drawn := d } := by
  subst h; exact ⟨_, _, _, rfl⟩

/-- The 64-bit cursor moved by `n`, as the model computes it. -/
theorem cursor_add (cur : BitVec 64) (n : Nat) : BitVec.ofNat 64 (cur.toNat + n) = cur + BitVec.ofNat 64 n := by
  rw [BitVec.ofNat_add, BitVec.ofNat_toNat, BitVec.setWidth_eq]

/-- A cursor moved by `n` inside `BUF_MAX` does not wrap. -/
theorem cursor_add_toNat {n : Nat} (s : State) (h : s.cur.toNat + n ≤ s.par.bufMax.toNat) :
    (s.cur + BitVec.ofNat 64 n).toNat = s.cur.toNat + n := by
  rw [← cursor_add, BitVec.toNat_ofNat, Nat.mod_eq_of_lt (cursor_lt_of_le_bufMax s h)]

/-- A wrap of at most `BUF_MAX` bytes (R140). -/
theorem wrapBuffer_next (e : Endian) {din : List Byte} {s : State} (h : din.length ≤ s.par.bufMax.toNat) :
    ∃ r o d, (wrapBuffer e din s).complete =
      .next { s with
        st := 0, r := r, dout := o, drawn := d, buf := Memory.ofBytes din, cur := 0, bend := e } := by
  rcases wrapBuffer_cases e din s with ⟨hlong, -⟩ | ⟨-, hw⟩
  · omega
  · exact noResults_next hw

theorem wrapBuffer_tooLong (e : Endian) {din : List Byte} {s : State} (h : s.par.bufMax.toNat < din.length) :
    ∃ r o d, (wrapBuffer e din s).complete = .next { s with st := 4, r := r, dout := o, drawn := d } := by
  rcases wrapBuffer_cases e din s with ⟨-, hw⟩ | ⟨hshort, -⟩
  · exact raised_next hw
  · omega

/-- A read of `n` bytes where as many remain (R141). -/
theorem readBuffer_next {n : Nat} {s : State} (h : n ≤ s.buf.size - s.cur.toNat) :
    ∃ o d, (readBuffer n s).complete =
      .next { s with
        st := 0, dout := o, drawn := d
        r := BitVec.ofNat 64 (valOf s.bend (s.buf.memRead s.cur.toNat n))
        cur := s.cur + BitVec.ofNat 64 n } := by
  rcases readBuffer_cases n s with ⟨hshort, -⟩ | ⟨-, hr⟩
  · omega
  · rw [cursor_add] at hr
    exact withR_next hr

theorem readBuffer_short {n : Nat} {s : State} (h : s.buf.size - s.cur.toNat < n) :
    ∃ r o d, (readBuffer n s).complete = .next { s with st := 3, r := r, dout := o, drawn := d } := by
  rcases readBuffer_cases n s with ⟨-, hr⟩ | ⟨hlong, -⟩
  · exact raised_next hr
  · omega

/-- A write of `n` bytes that ends inside `BUF_MAX` (R143). -/
theorem writeBuffer_next {n : Nat} (v : Nat) {s : State} (h : s.cur.toNat + n ≤ s.par.bufMax.toNat) :
    ∃ r o d, (writeBuffer n v s).complete =
      .next { s with
        st := 0, r := r, dout := o, drawn := d
        buf := (growBuffer n s).memWrite s.cur.toNat (bytesOf s.bend n v)
        cur := s.cur + BitVec.ofNat 64 n } := by
  rcases writeBuffer_cases n v s with ⟨hfull, -⟩ | ⟨-, hw⟩
  · omega
  · rw [cursor_add] at hw
    exact noResults_next hw

theorem writeBuffer_full {n : Nat} (v : Nat) {s : State} (h : s.par.bufMax.toNat < s.cur.toNat + n) :
    ∃ r o d, (writeBuffer n v s).complete = .next { s with st := 4, r := r, dout := o, drawn := d } := by
  rcases writeBuffer_cases n v s with ⟨-, hw⟩ | ⟨hfit, -⟩
  · exact raised_next hw
  · omega

/-- A seek whose target lies in `0..len` (R145): under R23 the cursor holds the target without wrap. -/
theorem seekBuffer_next {org : Origin} {off : BitVec 64} {s : State} {target : Int}
    (hmax : s.buf.size ≤ s.par.bufMax.toNat) (ht : target = seekBase org s + off.toInt) (hlo : 0 ≤ target)
    (hhi : target ≤ s.buf.size) :
    ∃ c r o d, (seekBuffer org off s).complete = .next { s with st := 0, r := r, dout := o, drawn := d, cur := c } ∧
      (c.toNat : Int) = target := by
  subst ht
  rcases seekBuffer_cases org off s with ⟨hout, -⟩ | ⟨-, -, hs⟩
  · omega
  · obtain ⟨r, o, d, hnext⟩ := noResults_next hs
    refine ⟨_, r, o, d, hnext, ?_⟩
    obtain ⟨n, hn⟩ := Int.eq_ofNat_of_zero_le hlo
    rw [hn] at hhi ⊢
    have hlt := cursor_lt_of_le_bufMax s ((Int.ofNat_le.mp hhi).trans hmax)
    rw [BitVec.ofInt_natCast, BitVec.toNat_ofNat, Nat.mod_eq_of_lt hlt]

theorem seekBuffer_outside {org : Origin} {off : BitVec 64} {s : State} {target : Int}
    (ht : target = seekBase org s + off.toInt) (hout : target < 0 ∨ (s.buf.size : Int) < target) :
    ∃ r o d, (seekBuffer org off s).complete = .next { s with st := 3, r := r, dout := o, drawn := d } := by
  subst ht
  rcases seekBuffer_cases org off s with ⟨-, hs⟩ | ⟨hlo, hhi, -⟩
  · exact raised_next hs
  · omega

/-! The buffer after a write at `cur <= len` (R143, R151). -/

theorem memRead_written (n v : Nat) (s : State) (hc : s.cur.toNat ≤ s.buf.size) :
    ((growBuffer n s).memWrite s.cur.toNat (bytesOf s.bend n v)).memRead s.cur.toNat n = bytesOf s.bend n v := by
  have hbelow : (s.buf.toBytes.take s.cur.toNat).length = s.cur.toNat := by simp [hc]
  rw [Memory.memRead, write_toBytes n v s hc, List.append_assoc, List.drop_left' hbelow,
    List.take_left' (bytesOf_length _ n v)]

theorem readByte_write_outside {n i : Nat} (v : Nat) (s : State) (hwf : s.buf.wf) (hc : s.cur.toNat ≤ s.buf.size)
    (hi : i < s.cur.toNat ∨ s.cur.toNat + n ≤ i) :
    ((growBuffer n s).memWrite s.cur.toNat (bytesOf s.bend n v)).readByte i = s.buf.readByte i := by
  have hbelow : (s.buf.toBytes.take s.cur.toNat).length = s.cur.toNat := by simp [hc]
  rw [readByte_of_wf _ (memWrite_wf _ _ _), readByte_of_wf _ hwf, write_toBytes n v s hc]
  rcases hi with hlt | hge
  · rw [List.append_assoc, List.getElem?_append_left (by omega), List.getElem?_take_of_lt hlt]
  · have hwritten : (s.buf.toBytes.take s.cur.toNat ++ bytesOf s.bend n v).length = s.cur.toNat + n := by
      rw [List.length_append, hbelow, bytesOf_length]
    rw [List.getElem?_append_right (by omega), hwritten, List.getElem?_drop, Nat.add_sub_cancel' hge]

end Sys2Proof.Machine
end

section
/-! The statements about unit BBC (40_codec.md R140 to R151). -/

namespace Sys2Proof.Machine

/-! The round trip (R150). -/

/-- What `B.WRITE` has written, `B.SEEK.BEG` back to the old cursor and `B.READ` return. The old cursor is read back as
a signed offset without loss, since `BUF_MAX` is below 2^63 (D4). -/
theorem write_seek_read {s : State} {n v : Nat} (hs : s.bufferInv) (hv : v < 2 ^ (8 * n))
    (hfit : s.cur.toNat + n ≤ s.par.bufMax.toNat) :
    ∃ s1 s2 s3, (writeBuffer n v s).complete = .next s1 ∧ (seekBuffer .fromBegin s.cur s1).complete = .next s2 ∧
      (readBuffer n s2).complete = .next s3 ∧ s1.st = 0 ∧ s2.st = 0 ∧ s3.st = 0 ∧ s3.r = BitVec.ofNat 64 v := by
  obtain ⟨-, hcur, hlen⟩ := hs
  have hsize := size_of_write n v s hcur
  have hread := memRead_written n v s hcur
  obtain ⟨r1, o1, d1, hwrite⟩ := writeBuffer_next v hfit
  generalize (growBuffer n s).memWrite s.cur.toNat (bytesOf s.bend n v) = written at hsize hread hwrite
  have hoff : (s.cur.toNat : Int) = 0 + s.cur.toInt := by
    have := s.par.bufMax.isLt
    rw [BitVec.toInt_eq_toNat_of_lt (by omega), Int.zero_add]
  have hmax : written.size ≤ s.par.bufMax.toNat := by omega
  have hback : (s.cur.toNat : Int) ≤ written.size := by omega
  obtain ⟨c, r2, o2, d2, hseek, hc⟩ := seekBuffer_next (org := .fromBegin)
    (s := { s with
      st := 0, r := r1, dout := o1, drawn := d1, buf := written, cur := s.cur + BitVec.ofNat 64 n })
    hmax hoff (Int.natCast_nonneg _) hback
  obtain rfl : c = s.cur := BitVec.eq_of_toNat_eq (Int.ofNat_inj.mp hc)
  have hremain : n ≤ written.size - s.cur.toNat := by omega
  obtain ⟨o3, d3, hget⟩ := readBuffer_next
    (s := { s with st := 0, r := r2, dout := o2, drawn := d2, buf := written }) hremain
  refine ⟨_, _, _, hwrite, hseek, hget, rfl, rfl, rfl, ?_⟩
  show BitVec.ofNat 64 (valOf s.bend (written.memRead s.cur.toNat n)) = BitVec.ofNat 64 v
  rw [hread, valOf_bytesOf_of_lt _ hv]

/-- Settles O15: the three operations through `write_seek_read`, and the free conversions by R142's inverse. -/
theorem codecRoundTrip : Obligations.CodecRoundTrip := by
  unfold Obligations.CodecRoundTrip
  refine ⟨fun s sz v hs hv hfit => ?_, fun s sz v hv => ?_⟩
  · obtain ⟨s1, s2, s3, hwrite, hseek, hread, hst1, hst2, hst3, hr⟩ := write_seek_read hs hv hfit
    rw [BitVec.ofNat_toNat, BitVec.setWidth_eq] at hr
    exact ⟨s1, s2, s3, (exec_writeOf sz v s).trans hwrite, (exec_seekOf .fromBegin s.cur s1).trans hseek,
      (exec_readOf sz s2).trans hread, hst1, hst2, hst3, hr⟩
  · exact ⟨_, _, exec_tobeOf sz v s, valOf_bytesOf_of_lt .big hv, exec_toleOf sz v s, valOf_bytesOf_of_lt .little hv⟩

/-! `B.WRITE` (R143, R151). -/

theorem decodeHost_write (sz : Fin 4) (a b : BitVec 64) (din : List Byte) :
    decodeHost (0x0400 + BitVec.ofNat 16 sz) a b din = .ok (writeOf sz a) := by
  match sz with
  | 0 | 1 | 2 | 3 => rfl

/-- Settles O9, by whether the write ends inside `BUF_MAX`. -/
theorem writeReplacesOrGrows : Obligations.WriteReplacesOrGrows := by
  unfold Obligations.WriteReplacesOrGrows
  intro s sz a hc
  rw [exec_writeOf]
  refine ⟨fun hfit => ?_, writeBuffer_full _, decodeHost_write sz a⟩
  obtain ⟨r, o, d, h⟩ := writeBuffer_next a.toNat hfit
  exact ⟨_, r, o, d, h, memWrite_wf _ _ _, write_toBytes _ _ s hc⟩

/-- Settles O10: the buffer and the cursor of a write that ended with `ST` = 0, read offset by offset. -/
theorem writeLosesNothing : Obligations.WriteLosesNothing := by
  unfold Obligations.WriteLosesNothing
  intro s t sz a hwf hc h hst
  rw [exec_writeOf] at h
  obtain ⟨hfit, hbuf, hcur⟩ := writeBuffer_next_of_st_zero h hst
  rw [hbuf, hcur, cursor_add]
  exact ⟨fun i hi => readByte_write_outside _ s hwf hc (hi.imp_right And.left), cursor_add_toNat s hfit,
    size_of_write _ _ s hc⟩

/-! `B.SEEK` (R145). -/

/-- Settles O13, by whether the target lies in `0..len`. -/
theorem seekMovesInsideTheBuffer : Obligations.SeekMovesInsideTheBuffer := by
  unfold Obligations.SeekMovesInsideTheBuffer
  rintro s org off target ⟨-, -, hmax⟩ htarget
  have ht : target = seekBase org s + off.toInt := by
    rw [htarget]
    cases org <;> rfl
  rw [exec_seekOf]
  exact ⟨seekBuffer_next hmax ht, seekBuffer_outside ht, fun b din => ⟨by cases org <;> rfl, rfl⟩⟩

/-! `B.TOBE` and `B.TOLE` (R147, R148). -/

theorem withDout_next_of_eq {bytes bytes' : List Byte} (h : bytes = bytes') (s : State) :
    ∃ r d, (withDout bytes s).complete = .next { s with st := 0, r := r, dout := bytes', drawn := d } :=
  withDout_next (congrArg (fun b => withDout b s) h)

theorem bytesOf_big_eq_map_extractLsb' {w : Nat} (n : Nat) (a : BitVec w) :
    bytesOf .big n a.toNat = ((List.range n).map fun k => a.extractLsb' (8 * k) 8).reverse :=
  congrArg List.reverse (bytesLE_eq_map_extractLsb' n a)

theorem bytesOf_one_toNat (e : Endian) (v : BitVec 8) : bytesOf e 1 v.toNat = [v] := by
  have hv : bytesLE 1 v.toNat = [v] := by rw [bytesLE, BitVec.ofNat_toNat, BitVec.setWidth_eq, bytesLE]
  cases e <;> rw [bytesOf, hv]
  rfl

/-- Settles O6: each width lays out the bit fields of its operand, from the last one down or from the first one up. -/
theorem freshByteSequences : Obligations.FreshByteSequences := by
  unfold Obligations.FreshByteSequences
  intro s
  exact ⟨fun v => withDout_next_of_eq (bytesOf_one_toNat .big v) s,
    fun v => withDout_next_of_eq (bytesOf_big_eq_map_extractLsb' 2 v) s,
    fun v => withDout_next_of_eq (bytesOf_big_eq_map_extractLsb' 4 v) s,
    fun v => withDout_next_of_eq (bytesOf_big_eq_map_extractLsb' 8 v) s,
    fun v => withDout_next_of_eq (bytesOf_one_toNat .little v) s,
    fun v => withDout_next_of_eq (bytesLE_eq_map_extractLsb' 2 v) s,
    fun v => withDout_next_of_eq (bytesLE_eq_map_extractLsb' 4 v) s,
    fun v => withDout_next_of_eq (bytesLE_eq_map_extractLsb' 8 v) s,
    fun _ _ _ => ⟨rfl, rfl, rfl, rfl, rfl, rfl, rfl, rfl⟩⟩

/-! `B.WRAP` (R140). -/

theorem exec_wrapOf_next (e : Endian) {din : List Byte} {s : State} (h : din.length ≤ s.par.bufMax.toNat) :
    ∃ m r o d, exec (wrapOf e din) s =
      .next { s with st := 0, r := r, dout := o, drawn := d, buf := m, cur := 0, bend := e } ∧
        m.wf ∧ m.toBytes = din := by
  obtain ⟨r, o, d, hnext⟩ := wrapBuffer_next e h
  exact ⟨_, r, o, d, (exec_wrapOf e din s).trans hnext, ofBytes_wf din, toBytes_ofBytes din⟩

/-- Settles O7: both forms of the wrap, by whether `DIN` is longer than `BUF_MAX`. -/
theorem wrapLoadsTheBuffer : Obligations.WrapLoadsTheBuffer := by
  unfold Obligations.WrapLoadsTheBuffer
  intro s din
  exact ⟨fun h => ⟨exec_wrapOf_next .little h, exec_wrapOf_next .big h⟩,
    fun h => ⟨wrapBuffer_tooLong .little h, wrapBuffer_tooLong .big h⟩, fun _ _ => ⟨rfl, rfl⟩⟩

/-! `B.READ` (R141). -/

theorem decodeHost_read (sz : Fin 4) (a b : BitVec 64) (din : List Byte) :
    decodeHost (0x0300 + BitVec.ofNat 16 sz) a b din = .ok (readOf sz) := by
  match sz with
  | 0 | 1 | 2 | 3 => rfl

/-- Settles O8, by whether as many bytes remain as are read. -/
theorem readReturnsTheNextBytes : Obligations.ReadReturnsTheNextBytes := by
  unfold Obligations.ReadReturnsTheNextBytes
  intro s sz
  rw [exec_readOf]
  exact ⟨readBuffer_next, readBuffer_short, decodeHost_read sz⟩

/-! `B.TELL` and `B.DUMP` (R146, R149). -/

/-- Settles O14: both rows present one value of the state and move nothing else. -/
theorem tellAndDump : Obligations.TellAndDump := by
  unfold Obligations.TellAndDump
  intro s
  exact ⟨withR_next (x := withR s.cur s) rfl, withDout_next (x := withDout s.buf.toBytes s) rfl,
    fun _ _ _ => ⟨rfl, rfl⟩⟩

end Sys2Proof.Machine
end

section
/-! The Track Table under one valid frame (41_touch.md R183 to R186): what each record of a frame without a repeated id
becomes, which entries are left, and the poll's events, each as a function of the table before the frame. -/

namespace Sys2Proof.Machine

/-! Entries by id (R26). -/

/-- Keeping the entries of some ids keeps what is found under them. -/
theorem tableFind_filter (f : BitVec 8 → Bool) (i : BitVec 8) (t : List (BitVec 8 × TouchEvent)) :
    tableFind i (t.filter fun p => f p.1) = if f i then tableFind i t else none := by
  induction t with
  | nil => simp [tableFind]
  | cons p t ih =>
    obtain ⟨j, e⟩ := p
    by_cases hj : j = i
    · subst hj
      by_cases hf : f j <;> simp [hf, tableFind, ih]
    · by_cases hf : f j <;> simp [hf, hj, tableFind, ih]

/-- Where no id stands twice, every entry is the one found under its id. -/
theorem tableFind_of_mem {t : List (BitVec 8 × TouchEvent)} (h : (tableIds t).Nodup) {p : BitVec 8 × TouchEvent}
    (hp : p ∈ t) : tableFind p.1 t = some p.2 := by
  induction t with
  | nil => cases hp
  | cons q t ih =>
    obtain ⟨j, e⟩ := q
    obtain ⟨hj, ht⟩ := List.nodup_cons.mp h
    rcases List.mem_cons.mp hp with rfl | hpt
    · exact if_pos rfl
    · have hne : j ≠ p.1 := by
        rintro rfl
        exact hj (List.mem_map.mpr ⟨p, hpt, rfl⟩)
      exact (if_neg hne).trans (ih ht hpt)

/-! One record (R183 to R185). -/

/-- The event of a record against a table: Touch for a new id, Drag where it differs, else none. -/
def recordEvent (t : List (BitVec 8 × TouchEvent)) (r : TouchRecord) : Option TouchEvent :=
  match tableFind r.touchId t with
  | none => some (eventOf .touch r)
  | some old => if differs (eventOf .drag r) old then some (eventOf .drag r) else none

theorem recordEvent_touchId {t : List (BitVec 8 × TouchEvent)} {r : TouchRecord} {e : TouchEvent}
    (h : recordEvent t r = some e) : e.touchId = r.touchId := by
  unfold recordEvent at h
  split at h
  · cases h; rfl
  · split at h <;> cases h
    rfl

/-- A record reads its own entry of the table only. -/
theorem recordEvent_congr {t t' : List (BitVec 8 × TouchEvent)} {r : TouchRecord}
    (h : tableFind r.touchId t' = tableFind r.touchId t) : recordEvent t' r = recordEvent t r := by
  rw [recordEvent, recordEvent, h]

/-- Classifying a record stores its event, if it has one, and marks its id updated. -/
theorem classifyRecord_eq (r : TouchRecord) (acc : List (BitVec 8 × TouchEvent) × List (BitVec 8)) :
    classifyRecord r acc =
      match recordEvent acc.1 r with
      | some e => (tableSet r.touchId e acc.1, acc.2 ++ [r.touchId])
      | none => acc := by
  unfold classifyRecord recordEvent
  cases tableFind r.touchId acc.1 with
  | none => rfl
  | some old =>
    dsimp only
    split <;> rfl

theorem tableFind_classifyRecord_self (r : TouchRecord) (acc : List (BitVec 8 × TouchEvent) × List (BitVec 8)) :
    tableFind r.touchId (classifyRecord r acc).1 = (recordEvent acc.1 r).or (tableFind r.touchId acc.1) := by
  rw [classifyRecord_eq]
  cases recordEvent acc.1 r with
  | none => rfl
  | some e => exact (tableFind_tableSet _ _ _ _).trans (if_pos rfl)

theorem classifyRecord_updated (r : TouchRecord) (acc : List (BitVec 8 × TouchEvent) × List (BitVec 8)) :
    (classifyRecord r acc).2 = acc.2 ++ (recordEvent acc.1 r).toList.map TouchEvent.touchId := by
  rw [classifyRecord_eq]
  cases h : recordEvent acc.1 r with
  | none => exact (List.append_nil _).symm
  | some e => simp [recordEvent_touchId h]

/-! The records of a frame, in frame order (R182): the last one is classified against what those before it left. -/

theorem classifyRecords_concat (rs : List TouchRecord) (r : TouchRecord) (t : List (BitVec 8 × TouchEvent)) :
    classifyRecords (rs ++ [r]) t = classifyRecord r (classifyRecords rs t) := by
  rw [classifyRecords, List.foldl_append]
  rfl

theorem nodup_touchIds_concat {rs : List TouchRecord} {r : TouchRecord} :
    ((rs ++ [r]).map TouchRecord.touchId).Nodup ↔
      (rs.map TouchRecord.touchId).Nodup ∧ r.touchId ∉ rs.map TouchRecord.touchId := by
  rw [List.map_append, List.map_singleton, ← List.concat_eq_append, List.nodup_concat]
  exact and_comm

theorem tableFind_classifyRecords_of_not_mem (rs : List TouchRecord) (t : List (BitVec 8 × TouchEvent)) {i : BitVec 8}
    (hi : i ∉ rs.map TouchRecord.touchId) : tableFind i (classifyRecords rs t).1 = tableFind i t := by
  induction rs using List.reverseRecOn with
  | nil => rfl
  | append_singleton rs r ih =>
    rw [List.map_append, List.mem_append, not_or] at hi
    obtain ⟨hrs, hr⟩ := hi
    rw [classifyRecords_concat, classifyRecord_find _ _ _ (by simpa using hr), ih hrs]

/-- A frame that repeats no id classifies each record as if it were the only one. -/
theorem recordEvent_classifyRecords {rs : List TouchRecord} {r : TouchRecord} (t : List (BitVec 8 × TouchEvent))
    (h : r.touchId ∉ rs.map TouchRecord.touchId) : recordEvent (classifyRecords rs t).1 r = recordEvent t r :=
  recordEvent_congr (tableFind_classifyRecords_of_not_mem rs t h)

theorem tableFind_classifyRecords_of_mem {rs : List TouchRecord} (t : List (BitVec 8 × TouchEvent))
    (hrs : (rs.map TouchRecord.touchId).Nodup) {r : TouchRecord} (hr : r ∈ rs) :
    tableFind r.touchId (classifyRecords rs t).1 = (recordEvent t r).or (tableFind r.touchId t) := by
  induction rs using List.reverseRecOn with
  | nil => cases hr
  | append_singleton rs q ih =>
    obtain ⟨hnodup, hq⟩ := nodup_touchIds_concat.mp hrs
    rw [classifyRecords_concat]
    rcases List.mem_append.mp hr with hr | hr
    · have hne : r.touchId ≠ q.touchId := fun hc => hq (hc ▸ List.mem_map_of_mem hr)
      rw [classifyRecord_find _ _ _ hne, ih hnodup hr]
    · obtain rfl := List.mem_singleton.mp hr
      rw [tableFind_classifyRecord_self, recordEvent_classifyRecords t hq, tableFind_classifyRecords_of_not_mem rs t hq]

/-- The ids marked updated are those of the records with an event. -/
theorem classifyRecords_updated {rs : List TouchRecord} (t : List (BitVec 8 × TouchEvent))
    (hrs : (rs.map TouchRecord.touchId).Nodup) :
    (classifyRecords rs t).2 = (rs.filterMap (recordEvent t)).map TouchEvent.touchId := by
  induction rs using List.reverseRecOn with
  | nil => rfl
  | append_singleton rs q ih =>
    obtain ⟨hnodup, hq⟩ := nodup_touchIds_concat.mp hrs
    have hlast : [q].filterMap (recordEvent t) = (recordEvent t q).toList := by
      cases h : recordEvent t q <;> simp [h]
    rw [classifyRecords_concat, classifyRecord_updated, recordEvent_classifyRecords t hq, ih hnodup,
      List.filterMap_append, hlast, List.map_append]

/-! The frame: its events, and the table after it (R186). -/

/-- The events of a frame: those of its records, and a Release for every entry the frame lacks. -/
theorem classifyFrame_events {rs : List TouchRecord} (t : List (BitVec 8 × TouchEvent))
    (hrs : (rs.map TouchRecord.touchId).Nodup) :
    (classifyFrame rs t).2 = rs.filterMap (recordEvent t) ++ (goneEntries rs t).map fun p => released p.2 := by
  have stored : ∀ e ∈ rs.filterMap (recordEvent t), tableFind e.touchId (classifyRecords rs t).1 = some e := by
    intro e he
    obtain ⟨r, hr, hre⟩ := List.mem_filterMap.mp he
    rw [recordEvent_touchId hre, tableFind_classifyRecords_of_mem t hrs hr, hre, Option.some_or]
  simp only [classifyFrame, classifyRecords_updated t hrs, List.filterMap_map, Function.comp_def]
  rw [List.filterMap_congr (g := some) stored, List.filterMap_some]

/-- After a frame an id is tracked exactly if the frame reports it (R183 to R186). -/
theorem tableFind_classifyFrame (rs : List TouchRecord) (t : List (BitVec 8 × TouchEvent)) (i : BitVec 8) :
    tableFind i (classifyFrame rs t).1 =
      if i ∈ rs.map TouchRecord.touchId then tableFind i (classifyRecords rs t).1 else none := by
  simp only [classifyFrame, tableFind_filter, List.contains_iff_mem]

theorem tableFind_classifyFrame_of_mem {rs : List TouchRecord} (t : List (BitVec 8 × TouchEvent))
    (hrs : (rs.map TouchRecord.touchId).Nodup) {r : TouchRecord} (hr : r ∈ rs) :
    tableFind r.touchId (classifyFrame rs t).1 = (recordEvent t r).or (tableFind r.touchId t) := by
  rw [tableFind_classifyFrame, if_pos (List.mem_map_of_mem hr), tableFind_classifyRecords_of_mem t hrs hr]

theorem tableFind_classifyFrame_of_not_mem {rs : List TouchRecord} (t : List (BitVec 8 × TouchEvent)) {i : BitVec 8}
    (hi : i ∉ rs.map TouchRecord.touchId) : tableFind i (classifyFrame rs t).1 = none := by
  rw [tableFind_classifyFrame, if_neg hi]

/-- A frame without records releases every entry (R181). -/
theorem classifyFrame_nil (t : List (BitVec 8 × TouchEvent)) :
    classifyFrame [] t = ([], t.map fun p => released p.2) := by
  simp [classifyFrame, classifyRecords, goneEntries]

theorem classifyFrame_events_length {rs : List TouchRecord} (t : List (BitVec 8 × TouchEvent))
    (hrs : (rs.map TouchRecord.touchId).Nodup) : (classifyFrame rs t).2.length ≤ rs.length + t.length := by
  rw [classifyFrame_events t hrs, List.length_append, List.length_map]
  exact Nat.add_le_add (List.length_filterMap_le _ _) (List.length_filter_le _ _)

/-! The events of a frame against a table as R30 has it. -/

theorem tableInv_nodup {t : List (BitVec 8 × TouchEvent)} (h : tableInv t) : (tableIds t).Nodup :=
  Ascending.nodup h.2.1

theorem tableInv_touchId {t : List (BitVec 8 × TouchEvent)} (h : tableInv t) {p : BitVec 8 × TouchEvent} (hp : p ∈ t) :
    p.2.touchId = p.1 := by
  obtain ⟨-, -, hentries⟩ := h
  exact (hentries p hp).1

theorem touchId_of_tableFind {t : List (BitVec 8 × TouchEvent)} (h : tableInv t) {i : BitVec 8} {old : TouchEvent}
    (hold : tableFind i t = some old) : old.touchId = i :=
  tableInv_touchId h (tableFind_mem i old t hold)

/-- Two events of one id differ in their coordinates or their size (R11). -/
theorem differs_iff {r : TouchRecord} {old : TouchEvent} (k : EventKind) (h : old.touchId = r.touchId) :
    differs (eventOf k r) old = true ↔ r.x ≠ old.x ∨ r.y ≠ old.y ∨ r.size ≠ old.size := by
  simp [differs, eventOf, h, or_assoc]

theorem recordEvent_eq_some {t : List (BitVec 8 × TouchEvent)} (h : tableInv t) {r : TouchRecord} {e : TouchEvent} :
    recordEvent t r = some e ↔
      (tableFind r.touchId t = none ∧ e = eventOf .touch r) ∨
      (∃ old, tableFind r.touchId t = some old ∧ (r.x ≠ old.x ∨ r.y ≠ old.y ∨ r.size ≠ old.size) ∧
        e = eventOf .drag r) := by
  unfold recordEvent
  cases hold : tableFind r.touchId t with
  | none => simp [eq_comm (a := e)]
  | some old => simp [← differs_iff .drag (touchId_of_tableFind h hold), eq_comm (a := e)]

/-- What is found under a record's id after its frame (R183 to R185). -/
theorem tableFind_classifyFrame_record {rs : List TouchRecord} {t : List (BitVec 8 × TouchEvent)} (h : tableInv t)
    (hrs : (rs.map TouchRecord.touchId).Nodup) {r : TouchRecord} (hr : r ∈ rs) :
    tableFind r.touchId (classifyFrame rs t).1 =
      match tableFind r.touchId t with
      | none => some (eventOf .touch r)
      | some old =>
        if r.x ≠ old.x ∨ r.y ≠ old.y ∨ r.size ≠ old.size then some (eventOf .drag r) else some old := by
  rw [tableFind_classifyFrame_of_mem t hrs hr, recordEvent]
  cases hold : tableFind r.touchId t with
  | none => rfl
  | some old =>
    simp only [differs_iff .drag (touchId_of_tableFind h hold)]
    split <;> rfl

theorem mem_goneEntries {rs : List TouchRecord} {t : List (BitVec 8 × TouchEvent)} {p : BitVec 8 × TouchEvent} :
    p ∈ goneEntries rs t ↔ p ∈ t ∧ p.1 ∉ rs.map TouchRecord.touchId := by
  simp [goneEntries]

/-- The Release events: one for each entry the frame lacks, with its stored fields (R186). -/
theorem mem_released_goneEntries {rs : List TouchRecord} {t : List (BitVec 8 × TouchEvent)} (h : tableInv t)
    {e : TouchEvent} :
    e ∈ (goneEntries rs t).map (fun p => released p.2) ↔
      ∃ i old, i ∉ rs.map TouchRecord.touchId ∧ tableFind i t = some old ∧
        e = ⟨.release, i, old.x, old.y, old.size⟩ := by
  constructor
  · intro he
    obtain ⟨p, hp, rfl⟩ := List.mem_map.mp he
    obtain ⟨hpt, hgone⟩ := mem_goneEntries.mp hp
    refine ⟨p.1, p.2, hgone, tableFind_of_mem (tableInv_nodup h) hpt, ?_⟩
    rw [released, tableInv_touchId h hpt]
  · rintro ⟨i, old, hgone, hold, rfl⟩
    refine List.mem_map.mpr ⟨(i, old), mem_goneEntries.mpr ⟨tableFind_mem i old t hold, hgone⟩, ?_⟩
    rw [released, touchId_of_tableFind h hold]

/-- The events of a frame, each with its reason (R183 to R186). -/
theorem mem_classifyFrame_events {rs : List TouchRecord} {t : List (BitVec 8 × TouchEvent)} (h : tableInv t)
    (hrs : (rs.map TouchRecord.touchId).Nodup) (e : TouchEvent) :
    e ∈ (classifyFrame rs t).2 ↔
      (∃ r ∈ rs, tableFind r.touchId t = none ∧ e = eventOf .touch r) ∨
      (∃ r ∈ rs, ∃ old, tableFind r.touchId t = some old ∧ (r.x ≠ old.x ∨ r.y ≠ old.y ∨ r.size ≠ old.size) ∧
        e = eventOf .drag r) ∨
      (∃ i old, i ∉ rs.map TouchRecord.touchId ∧ tableFind i t = some old ∧
        e = ⟨.release, i, old.x, old.y, old.size⟩) := by
  rw [classifyFrame_events t hrs, List.mem_append, List.mem_filterMap, mem_released_goneEntries h, ← or_assoc]
  simp only [recordEvent_eq_some h, and_or_left, exists_or]

theorem recordEvents_touchIds_sublist (rs : List TouchRecord) (t : List (BitVec 8 × TouchEvent)) :
    ((rs.filterMap (recordEvent t)).map TouchEvent.touchId).Sublist (rs.map TouchRecord.touchId) := by
  induction rs with
  | nil => exact .slnil
  | cons r rs ih =>
    cases h : recordEvent t r with
    | none => simpa [h] using ih.cons r.touchId
    | some e => simpa [h, recordEvent_touchId h] using ih

theorem released_touchIds {t : List (BitVec 8 × TouchEvent)} (h : tableInv t) (rs : List TouchRecord) :
    ((goneEntries rs t).map fun p => released p.2).map TouchEvent.touchId = tableIds (goneEntries rs t) := by
  rw [List.map_map]
  exact List.map_congr_left fun p hp => tableInv_touchId h (mem_goneEntries.mp hp).1

/-- A frame gives at most one event for an id. -/
theorem classifyFrame_touchIds_nodup {rs : List TouchRecord} {t : List (BitVec 8 × TouchEvent)} (h : tableInv t)
    (hrs : (rs.map TouchRecord.touchId).Nodup) : ((classifyFrame rs t).2.map TouchEvent.touchId).Nodup := by
  rw [classifyFrame_events t hrs, List.map_append, released_touchIds h]
  refine List.Nodup.append (hrs.sublist (recordEvents_touchIds_sublist rs t))
    ((tableInv_nodup h).sublist (List.filter_sublist.map Prod.fst)) fun i hi hgone => ?_
  obtain ⟨p, hp, rfl⟩ := List.mem_map.mp hgone
  exact (mem_goneEntries.mp hp).2 ((recordEvents_touchIds_sublist rs t).subset hi)

end Sys2Proof.Machine
end

section
/-! What a poll that goes on returns and leaves of the unit (41_touch.md R176 to R186), and what follows for the number
of its events (R176, R30) and for the events of one id over a run of polls (R192). -/

namespace Sys2Proof.Machine

/-! Event words on `DOUT` (R94, R95): they tell the events. -/

theorem kindCode_injective {k k' : EventKind} (h : kindCode k = kindCode k') : k = k' := by
  revert h
  cases k <;> cases k' <;> decide

theorem eventWord_injective {e e' : TouchEvent} (h : eventWord e = eventWord e') : e = e' := by
  have hkind : (kindCode e.kind).extractLsb' 0 8 = (kindCode e'.kind).extractLsb' 0 8 := by
    rw [← eventWord_kindBits e (by decide), h, eventWord_kindBits e' (by decide)]
  have hk : e.kind = e'.kind := kindCode_injective (by simpa using hkind)
  have hid : e.touchId = e'.touchId := by rw [← eventWord_touchId e, h, eventWord_touchId e']
  have hx : e.x = e'.x := by rw [← eventWord_x e, h, eventWord_x e']
  have hy : e.y = e'.y := by rw [← eventWord_y e, h, eventWord_y e']
  have hsize : e.size = e'.size := by rw [← eventWord_size e, h, eventWord_size e']
  cases e
  cases e'
  simp_all

theorem eventBytes_cons (e : TouchEvent) (es : List TouchEvent) :
    eventBytes (e :: es) = bytesOf .little 8 (eventWord e).toNat ++ eventBytes es := List.flatMap_cons

theorem eventBytes_injective : ∀ {es es' : List TouchEvent}, eventBytes es = eventBytes es' → es = es'
  | [], [], _ => rfl
  | [], e :: es, h | e :: es, [], h => by
    have hlength := congrArg List.length h
    rw [eventBytes_cons, List.length_append, bytesOf_length] at hlength
    exact absurd hlength (by simp only [eventBytes, List.flatMap_nil, List.length_nil]; omega)
  | e :: es, e' :: es', h => by
    rw [eventBytes_cons, eventBytes_cons] at h
    obtain ⟨hword, hrest⟩ := List.append_inj h (by simp only [bytesOf_length])
    have hval := congrArg (valOf .little) hword
    rw [valOf_bytesOf_of_lt _ (eventWord e).isLt, valOf_bytesOf_of_lt _ (eventWord e').isLt] at hval
    rw [eventWord_injective (BitVec.eq_of_toNat_eq hval), eventBytes_injective hrest]

/-! What a poll returns. -/

/-- The event list of a poll that goes on, and the unit after it: nothing happens; a locked unit unlocks (R177); or an
unlocked one has classified a frame (R182 to R186). `ReleaseAll` (R181) is a frame without records. -/
inductive PollEvents (u : TouchUnit) : List TouchEvent → TouchUnit → Prop where
  | quiet : PollEvents u [] u
  | unlock (e : TouchEvent) (locked : u.locked = true) : PollEvents u [e] ⟨[], u.cfg, false⟩
  | frame (rs : List TouchRecord) (evs : List TouchEvent) (unlocked : u.locked = false)
      (count : rs.length ≤ touchMaxCount) (once : (rs.map TouchRecord.touchId).Nodup)
      (order : evs.Perm (classifyFrame rs u.table).2) :
      PollEvents u evs { u with table := (classifyFrame rs u.table).1 }

theorem touch_of_ok {α : Type} {x : Res α} {a : α} {s t : State} {Q : Error → State → Prop}
    (hx : x.ends (CallsOnly s) Q) (h : x = .ok a t) : t.touch = s.touch := by
  subst h
  obtain ⟨_, _, _, rfl⟩ := hx
  rfl

theorem lockedPoll_events {s t : State} {evs : List TouchEvent} (hl : s.touch.locked = true)
    (h : lockedPoll s = .ok evs t) : PollEvents s.touch evs t.touch := by
  obtain ⟨status, s1, hread, h⟩ := bind_eq_ok.mp h
  have h1 := touch_of_ok (regReadByte_ends _ s) hread
  rw [← h1]
  split at h
  · rw [touchResetSequence_eq] at h
    cases h
    exact .unlock _ (h1 ▸ hl)
  · obtain ⟨_, s2, hwrite, h⟩ := bind_eq_ok.mp h
    cases h
    rw [touch_of_ok (regWrite_ends _ _ s1) hwrite]
    exact .quiet

theorem releaseAll_events {s t : State} {evs : List TouchEvent} (hl : s.touch.locked = false)
    (h : releaseAll s = .ok evs t) : PollEvents s.touch evs t.touch := by
  cases h
  have hnil := classifyFrame_nil s.touch.table
  have := PollEvents.frame (u := s.touch) [] (arrange s.nextEventOrder (classifyFrame [] s.touch.table).2) hl
    (Nat.zero_le _) List.nodup_nil (arrange_perm _ _)
  rw [hnil] at this
  exact this

theorem framePoll_events {s t : State} {evs : List TouchEvent} {count : Nat} (hcount : count ≤ touchMaxCount)
    (hl : s.touch.locked = false) (h : framePoll count s = .ok evs t) : PollEvents s.touch evs t.touch := by
  obtain ⟨bytes, s1, hread, h⟩ := bind_eq_ok.mp h
  have h1 := touch_of_ok (regRead_ends _ _ s) hread
  rw [← h1]
  cases hrs : parseFrame count bytes with
  | none => simp [hrs, fieldOr] at h
  | some rs =>
    simp only [hrs, fieldOr, bind_ok] at h
    split at h
    · cases h
      exact .frame rs _ (h1 ▸ hl) ((parseFrame_length hrs).trans_le hcount) ‹_› (arrange_perm _ _)
    · cases h

theorem unlockedPoll_events {s t : State} {evs : List TouchEvent} (hl : s.touch.locked = false)
    (h : unlockedPoll s = .ok evs t) : PollEvents s.touch evs t.touch := by
  obtain ⟨status, s1, hread, h⟩ := bind_eq_ok.mp h
  have h1 := touch_of_ok (regReadByte_ends _ s) hread
  rw [← h1]
  split at h
  · cases h
    exact .quiet
  · obtain ⟨_, s2, hwrite, h⟩ := bind_eq_ok.mp h
    have h2 := touch_of_ok (regWrite_ends _ _ s1) hwrite
    have hl2 : s2.touch.locked = false := by rw [h2, h1, hl]
    rw [← h2]
    dsimp only at h
    split at h
    · exact releaseAll_events hl2 h
    · exact framePoll_events (by omega) hl2 h

/-- A poll that goes on (R176). -/
theorem pollTouch_events {s t : State} {evs : List TouchEvent} (h : pollTouch s = .ok evs t) :
    s.tReady = true ∧ PollEvents s.touch evs t.touch := by
  cases hready : s.tReady with
  | false =>
    rw [pollTouch, requireTouchReady_not s hready] at h
    cases h
  | true =>
    rw [pollTouch, requireTouchReady_of s hready, bind_ok] at h
    obtain ⟨pending, s1, hwait, h⟩ := bind_eq_ok.mp h
    refine ⟨rfl, ?_⟩
    rw [← touch_of_ok (touchWait_ends _ s fun _ _ => True) hwait]
    split at h
    · cases h
      exact .quiet
    · cases hl : s1.touch.locked with
      | true => exact lockedPoll_events hl (by simpa [hl] using h)
      | false => exact unlockedPoll_events hl (by simpa [hl] using h)

/-! `T.POLL` from its event list (R94, R176, R296). -/

theorem exec_tPoll (s : State) :
    exec .tPoll s = ((pollTouch s).bind fun es s1 =>
      (.ok ⟨some (BitVec.ofNat 64 es.length), some (eventBytes es)⟩ s1 : Res Results)).complete := rfl

/-- A poll that ends, ends with its events presented or in an error that leaves the unit's table and lock to R300. -/
theorem exec_tPoll_cases {s t : State} (h : exec .tPoll s = .next t) :
    (∃ es s1, pollTouch s = .ok es s1 ∧
      t = s1.present ⟨some (BitVec.ofNat 64 es.length), some (eventBytes es)⟩) ∨
    (∃ e s1, pollTouch s = .raised e s1 ∧ t = s1.raise e) := by
  rw [exec_tPoll] at h
  rcases complete_eq_next.mp h with ⟨res, s1, hok, rfl⟩ | ⟨e, s1, hraised, rfl⟩
  · obtain ⟨es, s2, hpoll, hres⟩ := bind_eq_ok.mp hok
    cases hres
    exact .inl ⟨es, _, hpoll, rfl⟩
  · rcases bind_eq_raised.mp hraised with hpoll | ⟨es, s2, -, hres⟩
    · exact .inr ⟨e, s1, hpoll, rfl⟩
    · cases hres

/-- An error's code is not that of success (R290). -/
theorem errorCode_ne_zero (e : Error) : errorCode e ≠ 0 := by
  cases e <;> simp [errorCode]

/-- A poll that ends with `ST = 0` presents the events of `PollEvents`. -/
theorem exec_tPoll_success {s t : State} (h : exec .tPoll s = .next t) (hst : t.st = 0) :
    ∃ es, s.tReady = true ∧ PollEvents s.touch es t.touch ∧ t.r = BitVec.ofNat 64 es.length ∧
      t.dout = eventBytes es := by
  rcases exec_tPoll_cases h with ⟨es, s1, hpoll, rfl⟩ | ⟨e, s1, -, rfl⟩
  · obtain ⟨hready, hevents⟩ := pollTouch_events hpoll
    exact ⟨es, hready, hevents, rfl, rfl⟩
  · exact absurd hst (errorCode_ne_zero e)

/-- A poll that ends in `OutOfRange` leaves table, lock and configuration as they were (R171, R296). -/
theorem exec_tPoll_short {s t : State} (h : exec .tPoll s = .next t) (hst : t.st = 3) : t.touch = s.touch := by
  rcases exec_tPoll_cases h with ⟨es, s1, -, rfl⟩ | ⟨e, s1, hpoll, rfl⟩
  · exact absurd hst (show ¬(0 : BitVec 8) = 3 by decide)
  · have hends := pollTouch_ends s
    rw [hpoll] at hends
    obtain ⟨rfl | rfl | rfl, _, _, _, rfl⟩ := hends
    · exact absurd hst (show ¬(6 : BitVec 8) = 3 by decide)
    · exact absurd hst (show ¬(1 : BitVec 8) = 3 by decide)
    · rfl

/-! The number of events (R176). -/

theorem PollEvents.length_le {u u' : TouchUnit} {es : List TouchEvent} (h : PollEvents u es u')
    (ht : tableInv u.table) : es.length ≤ 10 := by
  cases h with
  | quiet => exact Nat.zero_le _
  | unlock => exact Nat.le_add_left 1 9
  | frame rs evs _ count once order =>
    obtain ⟨hentries, -⟩ := ht
    calc es.length = (classifyFrame rs u.table).2.length := order.length_eq
      _ ≤ rs.length + u.table.length := classifyFrame_events_length u.table once
      _ ≤ 5 + 5 := Nat.add_le_add count hentries

/-- Settles O30: at most 5 records and at most 5 tracked ids. -/
theorem atMostTenEvents : Obligations.AtMostTenEvents := by
  unfold Obligations.AtMostTenEvents
  intro s t hs h hst
  obtain ⟨es, hready, hevents, hr, -⟩ := exec_tPoll_success h hst
  obtain ⟨htable, -⟩ := hs hready
  rw [hr, BitVec.toNat_ofNat]
  exact (Nat.mod_le _ _).trans (hevents.length_le htable)

/-! The events of one id (R192). -/

theorem grammarRun_append (ks ks' : List EventKind) (isOpen : Bool) :
    grammarRun isOpen (ks ++ ks') = (grammarRun isOpen ks).bind fun b => grammarRun b ks' := by
  induction ks generalizing isOpen with
  | nil => rfl
  | cons k ks ih => cases isOpen <;> cases k <;> simp [grammarRun, ih]

/-- Of events with different ids, those of one id are none, or one. -/
theorem filter_touchId_cases {evs : List TouchEvent} (h : (evs.map TouchEvent.touchId).Nodup) (i : BitVec 8) :
    ((∀ e ∈ evs, e.touchId ≠ i) ∧ evs.filter (fun e => e.touchId == i) = []) ∨
    (∃ e ∈ evs, e.touchId = i ∧ evs.filter (fun e => e.touchId == i) = [e]) := by
  induction evs with
  | nil => exact .inl ⟨by simp, rfl⟩
  | cons e evs ih =>
    obtain ⟨he, hevs⟩ := List.nodup_cons.mp h
    by_cases hi : e.touchId = i
    · refine .inr ⟨e, List.mem_cons_self .., hi, ?_⟩
      have hrest : evs.filter (fun e => e.touchId == i) = [] := by
        refine List.filter_eq_nil_iff.mpr fun d hd hdi => he ?_
        exact List.mem_map.mpr ⟨d, hd, by rw [hi]; simpa using hdi⟩
      rw [List.filter_cons_of_pos (by simpa using hi), hrest]
    · rw [List.filter_cons_of_neg (by simpa using hi)]
      rcases ih hevs with ⟨hnone, hnil⟩ | ⟨d, hd, hdi, hone⟩
      · exact .inl ⟨by simpa [hi] using hnone, hnil⟩
      · exact .inr ⟨d, List.mem_cons_of_mem _ hd, hdi, hone⟩

/-- The kinds of the events of one id, in order. -/
def kindsOf (i : BitVec 8) (es : List TouchEvent) : List EventKind :=
  (es.filter fun e => e.touchId == i).map TouchEvent.kind

theorem kindsOf_append (i : BitVec 8) (a b : List TouchEvent) : kindsOf i (a ++ b) = kindsOf i a ++ kindsOf i b := by
  simp [kindsOf]

/-- Whether an id is tracked. -/
def tracked (i : BitVec 8) (t : List (BitVec 8 × TouchEvent)) : Bool := (tableFind i t).isSome

/-- An id the frame reports is tracked after it. -/
theorem tracked_classifyFrame_of_mem {rs : List TouchRecord} {t : List (BitVec 8 × TouchEvent)}
    (hrs : (rs.map TouchRecord.touchId).Nodup) {r : TouchRecord} (hr : r ∈ rs) (ht : tableInv t) :
    tracked r.touchId (classifyFrame rs t).1 = true := by
  rw [tracked, tableFind_classifyFrame_record ht hrs hr]
  cases tableFind r.touchId t with
  | none => rfl
  | some old => dsimp only; split <;> rfl

/-- An id without an event is tracked after a frame exactly if it was before. -/
theorem tracked_classifyFrame_of_no_event {rs : List TouchRecord} {t : List (BitVec 8 × TouchEvent)}
    (ht : tableInv t) (hrs : (rs.map TouchRecord.touchId).Nodup) {i : BitVec 8}
    (hnone : ∀ e ∈ (classifyFrame rs t).2, e.touchId ≠ i) :
    tracked i (classifyFrame rs t).1 = tracked i t := by
  have hevent (e : TouchEvent) := mem_classifyFrame_events ht hrs e
  by_cases hi : i ∈ rs.map TouchRecord.touchId
  · obtain ⟨r, hr, rfl⟩ := List.mem_map.mp hi
    rw [tracked_classifyFrame_of_mem hrs hr ht]
    cases hold : tableFind r.touchId t with
    | none => exact absurd rfl (hnone _ ((hevent _).mpr (.inl ⟨r, hr, hold, rfl⟩)))
    | some old => rw [tracked, hold]; rfl
  · rw [tracked, tableFind_classifyFrame_of_not_mem t hi]
    cases hold : tableFind i t with
    | none => rw [tracked, hold]
    | some old => exact absurd rfl (hnone _ ((hevent _).mpr (.inr (.inr ⟨i, old, hi, hold, rfl⟩))))

/-- One frame moves the automaton of an id from tracked before to tracked after, in whatever order its events stand. -/
theorem grammarRun_classifyFrame {rs : List TouchRecord} {t : List (BitVec 8 × TouchEvent)} (ht : tableInv t)
    (hrs : (rs.map TouchRecord.touchId).Nodup) {evs : List TouchEvent} (order : evs.Perm (classifyFrame rs t).2)
    (i : BitVec 8) :
    grammarRun (tracked i t) (kindsOf i evs) = some (tracked i (classifyFrame rs t).1) := by
  have hnodup : (evs.map TouchEvent.touchId).Nodup :=
    (order.map TouchEvent.touchId).nodup_iff.mpr (classifyFrame_touchIds_nodup ht hrs)
  rcases filter_touchId_cases hnodup i with ⟨hnone, hnil⟩ | ⟨e, he, rfl, hone⟩
  · rw [kindsOf, hnil, tracked_classifyFrame_of_no_event ht hrs fun e he => hnone e (order.mem_iff.mpr he)]
    rfl
  · rw [kindsOf, hone]
    rcases (mem_classifyFrame_events ht hrs e).mp (order.mem_iff.mp he) with
      ⟨r, hr, hnew, rfl⟩ | ⟨r, hr, old, hold, -, rfl⟩ | ⟨i, old, hgone, hold, rfl⟩
    · show grammarRun (tracked r.touchId t) [.touch] = some (tracked r.touchId _)
      rw [tracked_classifyFrame_of_mem hrs hr ht, tracked, hnew]
      rfl
    · show grammarRun (tracked r.touchId t) [.drag] = some (tracked r.touchId _)
      rw [tracked_classifyFrame_of_mem hrs hr ht, tracked, hold]
      rfl
    · rw [tracked, tracked, tableFind_classifyFrame_of_not_mem t hgone, hold]
      rfl

/-- A poll of an unlocked unit leaves it unlocked and R30 true, and moves each id's automaton on. -/
theorem PollEvents.grammar {u u' : TouchUnit} {es : List TouchEvent} (h : PollEvents u es u')
    (hl : u.locked = false) (ht : tableInv u.table) :
    u'.locked = false ∧ tableInv u'.table ∧
      ∀ i, grammarRun (tracked i u.table) (kindsOf i es) = some (tracked i u'.table) := by
  cases h with
  | quiet => exact ⟨hl, ht, fun _ => rfl⟩
  | unlock _ locked => exact absurd (hl.symm.trans locked) Bool.false_ne_true
  | frame rs _ _ count once order =>
    exact ⟨hl, classifyFrame_tableInv rs count u.table ht, grammarRun_classifyFrame ht once order⟩

/-- A run of polls of an unlocked unit does the same, poll by poll. -/
theorem PollRun.grammar {s t : State} {es : List TouchEvent} (h : PollRun s es t) (hl : s.touch.locked = false)
    (ht : tableInv s.touch.table) :
    t.touch.locked = false ∧ tableInv t.touch.table ∧
      ∀ i, grammarRun (tracked i s.touch.table) (kindsOf i es) = some (tracked i t.touch.table) := by
  induction h with
  | start => exact ⟨hl, ht, fun _ => rfl⟩
  | poll _ step ok events ih =>
    obtain ⟨hlu, htu, hrun⟩ := ih
    obtain ⟨evs', -, hevents, -, hdout⟩ := exec_tPoll_success step ok
    obtain rfl := eventBytes_injective (events.symm.trans hdout)
    obtain ⟨hlt, htt, hpoll⟩ := hevents.grammar hlu htu
    refine ⟨hlt, htt, fun i => ?_⟩
    rw [kindsOf_append, grammarRun_append, hrun i, Option.bind_some, hpoll i]
  | short _ step out ih => rwa [exec_tPoll_short step out]

/-- Settles O29, by induction on the run: each poll moves an id's automaton from tracked before to tracked after. -/
theorem eventGrammarOverPolls : Obligations.EventGrammarOverPolls := by
  unfold Obligations.EventGrammarOverPolls
  intro s t es id _ hl ht hrun
  obtain ⟨-, -, hgrammar⟩ := hrun.grammar hl ht
  exact hgrammar id

end Sys2Proof.Machine
end

section
/-! The order of a poll's events (41_touch.md R186, D17): every permutation of them has a choice code. -/

namespace Sys2Proof.Machine

/-- Some position picks a given element. -/
theorem exists_pick_eq {α : Type} (d : α) {a : α} {l : List α} (h : a ∈ l) : ∃ n < l.length, (pick d n l).1 = a := by
  induction l with
  | nil => cases h
  | cons x l ih =>
    rcases List.mem_cons.mp h with rfl | h
    · exact ⟨0, Nat.zero_lt_succ _, rfl⟩
    · obtain ⟨n, hn, hpick⟩ := ih h
      exact ⟨n + 1, Nat.succ_lt_succ hn, hpick⟩

/-- A code for a permutation: where its first element stands, then a code for the rest. -/
theorem exists_code_of_perm {α : Type} (n : Nat) :
    ∀ l l' : List α, l.length = n → l'.Perm l → ∃ code, arrangeN n code l = l' := by
  induction n with
  | zero =>
    intro l l' hlen hperm
    obtain rfl := List.eq_nil_of_length_eq_zero hlen
    exact ⟨[], hperm.eq_nil.symm⟩
  | succ n ih =>
    intro l l' hlen hperm
    match l, l', hlen, hperm with
    | [x], _, _, hperm => exact ⟨[], (List.perm_singleton.mp hperm).symm⟩
    | _ :: _ :: _, [], _, hperm => exact absurd hperm.length_eq (by simp)
    | x :: y :: l, a :: l', hlen, hperm =>
      obtain ⟨k, hk, hpick⟩ := exists_pick_eq x (hperm.subset (List.mem_cons_self ..))
      have hrest : l'.Perm (pick x k (x :: y :: l)).2 := by
        have hcons := hperm.trans (pick_perm x (x :: y :: l) k hk).symm
        rw [hpick] at hcons
        exact hcons.cons_inv
      obtain ⟨code, hcode⟩ := ih _ l' (by have := pick_length x _ k hk; omega) hrest
      have hmod : k % (l.length + 2) = k := Nat.mod_eq_of_lt hk
      refine ⟨k :: code, ?_⟩
      simp only [arrangeN, List.headD_cons, List.tail_cons, hmod]
      rw [hpick, hcode]

/-- Settles O28: `arrange_perm` one way, `exists_code_of_perm` the other. -/
theorem everyEventOrderIsPossible : Obligations.EveryEventOrderIsPossible := by
  unfold Obligations.EveryEventOrderIsPossible
  intro evs evs'
  constructor
  · rintro ⟨code, rfl⟩
    exact arrange_perm code evs
  · exact fun h => exists_code_of_perm evs.length evs evs' rfl h

end Sys2Proof.Machine
end

section
/-! The private codec of TES (41_touch.md R171) on answers written out byte by byte: the Config answer (R102) and touch
frames (R104, R105), and the same on answers that are too short. -/

namespace Sys2Proof.Machine

theorem takeField_append {n : Nat} (field rest : List Byte) (h : field.length = n) :
    takeField n (field ++ rest) = some (valLE field, rest) := by
  subst h
  rw [takeField_eq_some]
  simp

theorem takeField_length {n : Nat} {s : List Byte} {p : Nat × List Byte} (h : takeField n s = some p) :
    s.length = n + p.2.length := by
  obtain ⟨hle, -, hrest⟩ := takeField_eq_some.mp (show takeField n s = some (p.1, p.2) from h)
  rw [hrest, List.length_drop]
  omega

/-- A two byte field, low byte first, is the coordinate the two bytes are the halves of. -/
theorem valLE_extractLsb'_pair (a : BitVec 16) : valLE [a.extractLsb' 0 8, a.extractLsb' 8 8] = a.toNat := by
  have hbytes : [a.extractLsb' 0 8, a.extractLsb' 8 8] = bytesLE 2 a.toNat := (bytesLE_eq_map_extractLsb' 2 a).symm
  rw [hbytes, valLE_bytesLE]
  exact Nat.mod_eq_of_lt a.isLt

theorem valLE_pair (lo hi : Byte) : valLE [lo, hi] = (hi ++ lo).toNat := by
  rw [← valLE_extractLsb'_pair, BitVec.extractLsb'_append_eq_right, BitVec.extractLsb'_append_eq_left]

theorem valLE_single (b : Byte) : valLE [b] = b.toNat := rfl

/-! The Config answer (R102, R173). -/

theorem readConfig_answered (b0 b1 b2 b3 b4 : Byte) (more : List Byte) (s : State) :
    readConfig (b0 :: b1 :: b2 :: b3 :: b4 :: more) s = .ok () (s.setCfg ⟨b1 ++ b0, b3 ++ b2, b4⟩) := by
  have hx := takeField_append [b0, b1] (b2 :: b3 :: b4 :: more) rfl
  have hy := takeField_append [b2, b3] (b4 :: more) rfl
  have hpoints := takeField_append [b4] more rfl
  simp only [List.cons_append, List.nil_append, List.length_cons, List.length_nil] at hx hy hpoints
  simp only [readConfig, hx, hy, hpoints, fieldOr, bind_ok, valLE_pair, valLE_single, BitVec.ofNat_toNat,
    BitVec.setWidth_eq]
  rfl

/-- A short Config answer runs out at one of its three fields; those before it are written (R173, U8). -/
theorem readConfig_short {answer : List Byte} (h : answer.length < 5) (s : State) :
    ∃ c, readConfig answer s = .raised .outOfRange (s.setCfg c) := by
  unfold readConfig
  cases hx : takeField 2 answer with
  | none => exact ⟨s.touch.cfg, rfl⟩
  | some mx =>
    simp only [fieldOr, bind_ok]
    cases hy : takeField 2 mx.2 with
    | none => exact ⟨_, rfl⟩
    | some my =>
      dsimp only [bind_ok]
      cases hpoints : takeField 1 my.2 with
      | none => exact ⟨_, rfl⟩
      | some mp =>
        have h1 := takeField_length hx
        have h2 := takeField_length hy
        have h3 := takeField_length hpoints
        omega

/-! Touch frames (R104, R105, R182). -/

theorem takeRecord_recordBytes (r : TouchRecord) (reserved : Byte) (rest : List Byte) :
    takeRecord (recordBytes r reserved ++ rest) = some (r, rest) := by
  have hsplit : recordBytes r reserved ++ rest =
      [r.touchId] ++ ([r.x.extractLsb' 0 8, r.x.extractLsb' 8 8] ++ ([r.y.extractLsb' 0 8, r.y.extractLsb' 8 8] ++
        ([r.size.extractLsb' 0 8, r.size.extractLsb' 8 8] ++ ([reserved] ++ rest)))) := rfl
  rw [hsplit]
  simp only [takeRecord, takeField_append _ _ (show List.length [_] = 1 from rfl),
    takeField_append _ _ (show List.length [_, _] = 2 from rfl), Option.bind_some, valLE_extractLsb'_pair, valLE_single,
    BitVec.ofNat_toNat, BitVec.setWidth_eq]

theorem takeRecords_recordBytes (recs : List TouchRecord) :
    ∀ (reserved : List Byte) (tail : List Byte), reserved.length = recs.length →
      takeRecords recs.length ((List.zipWith recordBytes recs reserved).flatten ++ tail) = some recs := by
  induction recs with
  | nil => intros; rfl
  | cons r recs ih =>
    intro reserved tail h
    match reserved, h with
    | b :: reserved, h =>
      rw [List.zipWith_cons_cons, List.flatten_cons, List.append_assoc, List.length_cons, takeRecords,
        takeRecord_recordBytes, Option.bind_some, ih reserved tail (Nat.succ.inj h), Option.bind_some]

/-- A frame that holds its records is parsed into them; its first byte, the reserved bytes and what follows are
skipped. -/
theorem parseFrame_recordBytes {recs : List TouchRecord} {lead reserved : List Byte} (tail : List Byte)
    (hlead : lead.length = 1) (hreserved : reserved.length = recs.length) :
    parseFrame recs.length (lead ++ (List.zipWith recordBytes recs reserved).flatten ++ tail) = some recs := by
  rw [parseFrame, List.append_assoc, takeField_append _ _ hlead, Option.bind_some,
    takeRecords_recordBytes recs reserved tail hreserved]

theorem takeRecord_length {s : List Byte} {p : TouchRecord × List Byte} (h : takeRecord s = some p) :
    s.length = 8 + p.2.length := by
  simp only [takeRecord, Option.bind_eq_some_iff, Option.some.injEq] at h
  obtain ⟨pid, hid, px, hx, py, hy, psize, hsize, preserved, hreserved, rfl⟩ := h
  have idLength := takeField_length hid
  have xLength := takeField_length hx
  have yLength := takeField_length hy
  have sizeLength := takeField_length hsize
  have reservedLength := takeField_length hreserved
  dsimp only
  omega

theorem takeRecords_length_le {k : Nat} :
    ∀ {s : List Byte} {rs : List TouchRecord}, takeRecords k s = some rs → 8 * k ≤ s.length := by
  induction k with
  | zero => exact fun _ => Nat.zero_le _
  | succ k ih =>
    intro s rs h
    simp only [takeRecords, Option.bind_eq_some_iff] at h
    obtain ⟨p, hp, rs', hrs, -⟩ := h
    have hrecord := takeRecord_length hp
    have hrest := ih hrs
    omega

/-- A frame of too few bytes has no records to classify. -/
theorem parseFrame_short {count : Nat} {frame : List Byte} (h : frame.length < 1 + 8 * count) :
    parseFrame count frame = none := by
  refine Option.eq_none_iff_forall_ne_some.mpr fun rs hrs => ?_
  obtain ⟨p, hp, hrs⟩ := Option.bind_eq_some_iff.mp hrs
  have hlead := takeField_length hp
  have hrecords := takeRecords_length_le hrs
  omega

end Sys2Proof.Machine
end

section
/-! The calls of TES as the environment answers them, each with the records and the answers left after it, and the
operations of TES built from them (41_touch.md R172 to R187). -/

namespace Sys2Proof.Machine

/-- A state after calls: their records in the trace, the answers left, the draw counter moved on. -/
def State.called (s : State) (es : List Record) (an : Answers) (d : Nat) : State :=
  { s with trace := s.trace ++ es, answers := an, drawn := d }

/-- One more call. -/
theorem State.called_draw (s : State) (es : List Record) (an an' : Answers) (d : Nat) (e : Record) :
    ((s.called es an d).afterDraw an').emit e = s.called (es ++ [e]) an' (d + 1) := by
  simp [State.called, State.afterDraw, State.emit]

/-! Single calls. -/

theorem touchWait_answered {tm : Timeout} {ans : WaitAnswer} {b : Bool} {s : State} {rest : List WaitAnswer}
    (h : s.answers.touchWait = ans :: rest) (hb : waitResult tm ans = some b) :
    touchWait tm s = .ok b (s.called [.lineWait .tInt tm b] { s.answers with touchWait := rest } (s.drawn + 1)) := by
  simp only [touchWait, State.nextTouchWait, h, List.headD_cons, List.tail_cons, lineWait, hb]
  rfl

theorem touchWait_never {s : State} {rest : List WaitAnswer} (h : s.answers.touchWait = .never :: rest) :
    touchWait .unset s = .stuck .waitNeverAnswered := by
  simp only [touchWait, State.nextTouchWait, h, List.headD_cons, lineWait, waitResult]

/-- A wait that can end ends with whether the edge fired (R306). -/
theorem waitResult_eq {tm : Timeout} {ans : WaitAnswer} (h : ans ≠ .never ∨ tm ≠ .unset) :
    waitResult tm ans = some (decide (ans = .fired)) := by
  match ans, tm, h with
  | .fired, _, _ | .expired, _, _ | .never, .ms _, _ => rfl

theorem regWrite_failed {reg : BitVec 16} {payload : List Byte} {s : State} {rest : List Bool}
    (h : s.answers.regWrite = false :: rest) :
    regWrite reg payload s =
      .raised (.transportError .touchUnit) (s.called [.i2cWrite (touchDevAddr s.par) (registerBytes reg) payload false]
        { s.answers with regWrite := rest } (s.drawn + 1)) := by
  simp only [regWrite, State.nextRegWrite, h, List.headD_cons, List.tail_cons]
  rfl

/-! `T.INIT` (R173). -/

/-- `T.INIT` after the reset sequence: not ready, unlocked, the table empty. -/
def State.initStarted (s : State) : State :=
  { s with tReady := false, touch := ⟨[], s.touch.cfg, false⟩, trace := s.trace ++ touchResetRecords s.par }

theorem initTouch_eq (s : State) :
    initTouch s = (regReadExact regId 4 s.initStarted).bind fun ident s2 =>
      if ident ≠ touchIdExpect then .raised .protocolMismatch s2
      else (regRead regConfig 5 s2).bind fun answer s3 =>
        (readConfig answer s3).bind fun _ s4 => .ok () (s4.setTReady true) := by
  rw [initTouch, touchResetSequence_eq, bind_ok]
  rfl

section
variable {s : State} {ident : List Byte} {rest : List (Option (List Byte))}

/-- The state of `T.INIT` once `ID` is answered. -/
def State.identified (s : State) (ident : List Byte) (rest : List (Option (List Byte))) : State :=
  s.initStarted.called [readRecord s.par regId 4 ident] { s.answers with regRead := rest } (s.drawn + 1)

theorem length_of_ident (h : ident.take 4 = touchIdExpect) : 4 ≤ ident.length := by
  have hlength : min 4 ident.length = 4 := (List.length_take).symm.trans (congrArg List.length h)
  omega

theorem initTouch_identified (hread : s.answers.regRead = some ident :: rest)
    (hident : ident.take 4 = touchIdExpect) :
    initTouch s = (regRead regConfig 5 (s.identified ident rest)).bind fun answer s3 =>
      (readConfig answer s3).bind fun _ s4 => .ok () (s4.setTReady true) := by
  rw [initTouch_eq, regReadExact_answered regId 4 s.initStarted ident rest hread (length_of_ident hident), bind_ok,
    if_neg (not_not_intro hident)]
  rfl

theorem initTouch_mismatch (hread : s.answers.regRead = some ident :: rest) (hlen : 4 ≤ ident.length)
    (hident : ident.take 4 ≠ touchIdExpect) :
    initTouch s = .raised .protocolMismatch (s.identified ident rest) := by
  rw [initTouch_eq, regReadExact_answered regId 4 s.initStarted ident rest hread hlen, bind_ok, if_pos hident]
  rfl

theorem initTouch_shortIdent (hread : s.answers.regRead = some ident :: rest) (hlen : ident.length < 4) :
    initTouch s = .raised .outOfRange (s.identified ident rest) := by
  rw [initTouch_eq, regReadExact_short regId 4 s.initStarted ident rest hread hlen, bind_raised]
  rfl

theorem initTouch_failedIdent (hread : s.answers.regRead = none :: rest) :
    initTouch s = .raised (.transportError .touchUnit)
      (s.initStarted.called [.i2cRead (touchDevAddr s.par) (registerBytes regId) 4 none]
        { s.answers with regRead := rest } (s.drawn + 1)) := by
  rw [initTouch_eq, regReadExact, regRead_failed regId 4 s.initStarted rest hread]
  rfl

/-- The state of `T.INIT` once `Config` is answered too. -/
def State.configRead (s : State) (ident config : List Byte) (rest : List (Option (List Byte))) : State :=
  s.initStarted.called [readRecord s.par regId 4 ident, readRecord s.par regConfig 5 config]
    { s.answers with regRead := rest } (s.drawn + 2)

theorem regRead_config {config : List Byte} :
    regRead regConfig 5 (s.identified ident (some config :: rest)) = .ok config (s.configRead ident config rest) := by
  rw [regRead_answered regConfig 5 _ config rest rfl, State.identified, State.called_draw]
  rfl

theorem initTouch_configured {b0 b1 b2 b3 b4 : Byte} {more : List Byte}
    (hread : s.answers.regRead = some ident :: some (b0 :: b1 :: b2 :: b3 :: b4 :: more) :: rest)
    (hident : ident.take 4 = touchIdExpect) :
    initTouch s = .ok () (((s.configRead ident (b0 :: b1 :: b2 :: b3 :: b4 :: more) rest).setCfg
      ⟨b1 ++ b0, b3 ++ b2, b4⟩).setTReady true) := by
  rw [initTouch_identified hread hident, regRead_config, bind_ok, readConfig_answered, bind_ok]

theorem initTouch_shortConfig {config : List Byte} (hread : s.answers.regRead = some ident :: some config :: rest)
    (hident : ident.take 4 = touchIdExpect) (hlen : config.length < 5) :
    ∃ c, initTouch s = .raised .outOfRange ((s.configRead ident config rest).setCfg c) := by
  obtain ⟨c, hc⟩ := readConfig_short hlen (s.configRead ident config rest)
  exact ⟨c, by rw [initTouch_identified hread hident, regRead_config, bind_ok, hc, bind_raised]⟩

theorem initTouch_failedConfig (hread : s.answers.regRead = some ident :: none :: rest)
    (hident : ident.take 4 = touchIdExpect) :
    initTouch s = .raised (.transportError .touchUnit)
      (s.initStarted.called [readRecord s.par regId 4 ident,
        .i2cRead (touchDevAddr s.par) (registerBytes regConfig) 5 none]
        { s.answers with regRead := rest } (s.drawn + 2)) := by
  rw [initTouch_identified hread hident, regRead_failed regConfig 5 _ rest rfl, bind_raised, State.identified,
    State.called_draw]
  rfl

end

/-- Settles O16: each path of `initTouch` by the answers, presented or raised. -/
theorem touchInitialisation : Obligations.TouchInitialisation := by
  unfold Obligations.TouchInitialisation
  intro s ident config rest
  refine ⟨?success, ?mismatch, ?shortIdent, ?failedIdent, ?shortConfig, ?failedConfig, fun _ _ _ => rfl⟩
  case success =>
    intro hread hident hlen
    match config, hlen with
    | _ :: _ :: _ :: _ :: _ :: _, _ => exact silent_next (initTouch_configured hread hident)
  case mismatch =>
    intro hread hlen hident
    exact silent_raised_next (initTouch_mismatch hread hlen hident)
  case shortIdent =>
    intro hread hlen
    exact silent_raised_next (initTouch_shortIdent hread hlen)
  case failedIdent =>
    intro hread
    have := silent_raised_next (initTouch_failedIdent hread)
    rw [registerBytes_regId] at this
    exact ⟨_, this⟩
  case shortConfig =>
    intro hread hident hlen
    obtain ⟨c, hc⟩ := initTouch_shortConfig hread hident hlen
    exact ⟨c, silent_raised_next hc⟩
  case failedConfig =>
    intro hread hident
    have := silent_raised_next (initTouch_failedConfig hread hident)
    rw [registerBytes_regConfig] at this
    exact ⟨_, this⟩

/-! `T.CFG` (R174). -/

theorem cfgWord_fields (c : TouchConfig) :
    (cfgWord c).extractLsb' 0 16 = c.maxX ∧ (cfgWord c).extractLsb' 16 16 = c.maxY ∧
      (cfgWord c).extractLsb' 32 8 = c.maxTouchPoints ∧ (cfgWord c).extractLsb' 40 24 = 0 := by
  have above16 {start len : Nat} (h : 16 ≤ start) : (cfgWord c).extractLsb' start len =
      ((0 : BitVec 24) ++ c.maxTouchPoints ++ c.maxY).extractLsb' (start - 16) len :=
    BitVec.extractLsb'_append_eq_of_le h
  refine ⟨BitVec.extractLsb'_append_eq_right, ?_, ?_, ?_⟩ <;> rw [above16 (by decide)]
  · exact BitVec.extractLsb'_append_eq_right
  · rw [BitVec.extractLsb'_append_eq_of_le (by decide)]
    exact BitVec.extractLsb'_append_eq_right
  · rw [BitVec.extractLsb'_append_eq_of_le (by decide), BitVec.extractLsb'_append_eq_of_le (by decide)]
    rfl

/-- An operation of TES that needs the unit ready, on an unready one (R299). -/
theorem touchNotReady_next {s : State} {x : Res Results} (h : x = .raised .notReady s) :
    ∃ r o d, x.complete = .next { s with st := 6, r := r, dout := o, drawn := d } := raised_next h

/-- Settles O17: the configuration's word by its fields, or the gate of R299. -/
theorem touchConfiguration : Obligations.TouchConfiguration := by
  unfold Obligations.TouchConfiguration
  intro s
  refine ⟨fun hready => ?_, fun hready => touchNotReady_next ?_, fun _ _ _ => rfl⟩
  · obtain ⟨o, d, hnext⟩ := withR_next (x := (requireTouchReady s).bind fun _ s1 => withR (cfgWord s1.touch.cfg) s1)
      (by rw [requireTouchReady_of s hready, bind_ok])
    exact ⟨_, o, d, hnext, cfgWord_fields s.touch.cfg⟩
  · rw [requireTouchReady_not s hready, bind_raised]

/-! `T.LOCK` (R175). -/

theorem lockTouch_ready {s : State} (hready : s.tReady = true) :
    lockTouch s = (regWrite regLockControl lockPayload s).bind fun _ s2 =>
      .ok () ((s2.setLocked true).setTable []) := by
  rw [lockTouch, requireTouchReady_of s hready, bind_ok]

theorem lockTouch_written {s : State} {rest : List Bool} (hready : s.tReady = true)
    (hwrite : s.answers.regWrite = true :: rest) :
    lockTouch s = .ok () (((s.called [writeRecord s.par regLockControl lockPayload]
      { s.answers with regWrite := rest } (s.drawn + 1)).setLocked true).setTable []) := by
  rw [lockTouch_ready hready, regWrite_ok _ _ s rest hwrite, bind_ok]
  rfl

theorem lockTouch_failed {s : State} {rest : List Bool} (hready : s.tReady = true)
    (hwrite : s.answers.regWrite = false :: rest) :
    lockTouch s = .raised (.transportError .touchUnit)
      (s.called [.i2cWrite (touchDevAddr s.par) (registerBytes regLockControl) lockPayload false]
        { s.answers with regWrite := rest } (s.drawn + 1)) := by
  rw [lockTouch_ready hready, regWrite_failed hwrite, bind_raised]

/-- Settles O18: the write succeeds, fails, or is not reached. -/
theorem touchLock : Obligations.TouchLock := by
  unfold Obligations.TouchLock
  intro s rest
  refine ⟨?written, ?failed, ?unready, fun _ _ _ => rfl⟩
  case written =>
    intro hready hwrite
    have := silent_next (lockTouch_written hready hwrite)
    rw [writeRecord, registerBytes_regLockControl] at this
    exact this
  case failed =>
    intro hready hwrite
    have := silent_raised_next (lockTouch_failed hready hwrite)
    rw [registerBytes_regLockControl] at this
    exact ⟨_, this⟩
  case unready =>
    intro hready
    refine touchNotReady_next (x := (lockTouch s).silent) ?_
    rw [lockTouch, requireTouchReady_not s hready, bind_raised, silent_raised]

/-! `T.WAIT` (R187). -/

theorem exec_tWait_ready {s : State} (a : BitVec 64) (hready : s.tReady = true) :
    exec (.tWait a) s =
      ((touchWait (timeoutOfPort a) s).bind fun b s2 => withR ((BitVec.ofBool b).setWidth 64) s2).complete := by
  show execTWait a s = _
  rw [execTWait, requireTouchReady_of s hready, bind_ok]

/-- Settles O19: the wait is answered, never ends, or is not reached. The bare name is the model's operation. -/
theorem Tes.touchWait : Obligations.TouchWait := by
  unfold Obligations.TouchWait
  intro s a ans rest timeout htimeout
  have hport : timeoutOfPort a = timeout := htimeout.symm
  refine ⟨?answered, ?stuck, ?unready, fun _ _ => rfl⟩
  case answered =>
    intro hready hwait hends
    have hvalue : (BitVec.ofBool (decide (ans = .fired))).setWidth 64 = if ans = .fired then 1 else 0 := by
      cases ans <;> rfl
    rw [exec_tWait_ready a hready, hport, touchWait_answered hwait (waitResult_eq hends), bind_ok, hvalue]
    exact withR_next rfl
  case stuck =>
    intro hready hwait hunset
    rw [exec_tWait_ready a hready, hport, hunset, touchWait_never hwait]
    rfl
  case unready =>
    intro hready
    exact touchNotReady_next (by rw [requireTouchReady_not s hready, bind_raised])

end Sys2Proof.Machine
end

section
/-! `T.POLL` by what the environment answers (41_touch.md R176 to R186): the trace and the state of each
of its paths. -/

namespace Sys2Proof.Machine

/-! From the event list to the next state. -/

theorem exec_tPoll_of_ok {s t : State} {es : List TouchEvent} (h : pollTouch s = .ok es t) :
    ∃ d, exec .tPoll s =
      .next { t with st := 0, r := BitVec.ofNat 64 es.length, dout := eventBytes es, drawn := d } := by
  rw [exec_tPoll, h]
  exact ⟨_, rfl⟩

theorem exec_tPoll_of_raised {s t : State} {e : Error} (h : pollTouch s = .raised e t) :
    ∃ r o d, exec .tPoll s =
      .next { t.errorState e with st := errorCode e, r := r, dout := o, drawn := d } := by
  rw [exec_tPoll, h]
  exact ⟨_, _, _, rfl⟩

theorem exec_tPoll_of_refused {s : State} {why : Refusal} (h : pollTouch s = .refused why) :
    exec .tPoll s = .refused why := by
  rw [exec_tPoll, h]
  rfl

/-! Step 1, the pending edge (R180). -/

theorem pollTouch_ready {s : State} (hready : s.tReady = true) :
    pollTouch s = (touchWait (.ms 0) s).bind fun pending s2 =>
      if pending = false then .ok [] s2 else if s2.touch.locked then lockedPoll s2 else unlockedPoll s2 := by
  rw [pollTouch, requireTouchReady_of s hready, bind_ok]

theorem pollTouch_noEdge {s : State} {ans : WaitAnswer} {waits : List WaitAnswer} (hready : s.tReady = true)
    (hwait : s.answers.touchWait = ans :: waits) (hans : ans ≠ .fired) :
    pollTouch s =
      .ok [] (s.called [pollRecord false] { s.answers with touchWait := waits } (s.drawn + 1)) := by
  have hresult : waitResult (.ms 0) ans = some false := by
    rw [waitResult_eq (.inr (by simp)), decide_eq_false hans]
  rw [pollTouch_ready hready, touchWait_answered hwait hresult, bind_ok, if_pos rfl]
  rfl

/-- The state of a poll whose edge has fired. -/
def State.polled (s : State) (waits : List WaitAnswer) : State :=
  s.called [pollRecord true] { s.answers with touchWait := waits } (s.drawn + 1)

theorem pollTouch_edge {s : State} {waits : List WaitAnswer} (hready : s.tReady = true)
    (hwait : s.answers.touchWait = .fired :: waits) :
    pollTouch s = if s.touch.locked then lockedPoll (s.polled waits) else unlockedPoll (s.polled waits) := by
  rw [pollTouch_ready hready, touchWait_answered hwait (b := true) rfl, bind_ok, if_neg Bool.true_eq_false_eq_False]
  rfl

/-! The register calls of a poll, each after calls `es` that left the answers `an`. -/

section
variable {s : State} {es : List Record} {an : Answers} {d : Nat} {reg : BitVec 16} {waits : List WaitAnswer}
  {reads : List (Option (List Byte))} {writes : List Bool} {status : Byte} {more : List Byte}

theorem regReadByte_called (h : an.regRead = some (status :: more) :: reads) :
    regReadByte reg (s.called es an d) = .ok status
      (s.called (es ++ [readRecord s.par reg 1 (status :: more)]) { an with regRead := reads } (d + 1)) := by
  rw [regReadByte, regReadExact_answered reg 1 (s.called es an d) _ reads h (Nat.le_add_left 1 _),
    State.called_draw]
  rfl

theorem regRead_called {n : Nat} {bytes : List Byte} (h : an.regRead = some bytes :: reads) :
    regRead reg n (s.called es an d) =
      .ok bytes (s.called (es ++ [readRecord s.par reg n bytes]) { an with regRead := reads } (d + 1)) := by
  rw [regRead_answered reg n (s.called es an d) bytes reads h, State.called_draw]
  rfl

theorem regWrite_called {payload : List Byte} (h : an.regWrite = true :: writes) :
    regWrite reg payload (s.called es an d) =
      .ok () (s.called (es ++ [writeRecord s.par reg payload]) { an with regWrite := writes } (d + 1)) := by
  rw [regWrite_ok reg payload (s.called es an d) writes h, State.called_draw]
  rfl

/-! Step 2, a locked unit (R177). -/

theorem lockedPoll_unlock (hread : an.regRead = some (unlockStatus :: more) :: reads) :
    lockedPoll (s.called es an d) = .ok [unlockEvent s.par]
      { s.called (es ++ [readRecord s.par regLockStatus 1 (unlockStatus :: more)]) { an with regRead := reads }
          (d + 1) with
        trace := s.trace ++ (es ++ [readRecord s.par regLockStatus 1 (unlockStatus :: more)]) ++
          touchResetRecords s.par
        touch := ⟨[], s.touch.cfg, false⟩ } := by
  rw [lockedPoll, regReadByte_called hread, bind_ok, if_pos rfl, touchResetSequence_eq, bind_ok]
  rfl

theorem lockedPoll_acknowledge (hread : an.regRead = some (status :: more) :: reads)
    (hwrite : an.regWrite = true :: writes) (hstatus : status ≠ unlockStatus) :
    lockedPoll (s.called es an d) = .ok []
      (s.called (es ++ [readRecord s.par regLockStatus 1 (status :: more)] ++ [writeRecord s.par regLockStatus [0x00]])
        { an with regRead := reads, regWrite := writes } (d + 2)) := by
  rw [lockedPoll, regReadByte_called hread, bind_ok, if_neg hstatus,
    regWrite_called (an := { an with regRead := reads }) hwrite, bind_ok]

/-! Steps 3 and 4, the status byte of an unlocked unit and its acknowledge (R178, R179). -/

theorem pollTouch_unlocked (hready : s.tReady = true) (hl : s.touch.locked = false)
    (hwait : s.answers.touchWait = .fired :: waits) : pollTouch s = unlockedPoll (s.polled waits) := by
  rw [pollTouch_edge hready hwait, hl, if_neg Bool.false_ne_true]

theorem unlockedPoll_quiet (hread : an.regRead = some (0x00 :: more) :: reads) :
    unlockedPoll (s.called es an d) = .ok []
      (s.called (es ++ [readRecord s.par regTouchStatus 1 (0x00 :: more)]) { an with regRead := reads } (d + 1)) := by
  rw [unlockedPoll, regReadByte_called hread, bind_ok, if_pos rfl]

/-- The state of a poll that has read the bytes of a status from Touch Status and acknowledged it. -/
def State.acknowledged (s : State) (bytes : List Byte) (waits : List WaitAnswer) (reads : List (Option (List Byte)))
    (writes : List Bool) : State :=
  s.called [pollRecord true, readRecord s.par regTouchStatus 1 bytes, writeRecord s.par regTouchStatus [0x00]]
    { s.answers with touchWait := waits, regRead := reads, regWrite := writes } (s.drawn + 3)

/-- A poll of an unlocked unit on a non-zero status, up to its count (R176 to R179). -/
theorem pollTouch_acknowledged (hready : s.tReady = true) (hl : s.touch.locked = false)
    (hwait : s.answers.touchWait = .fired :: waits) (hread : s.answers.regRead = some (status :: more) :: reads)
    (hwrite : s.answers.regWrite = true :: writes) (hstatus : status ≠ 0) :
    pollTouch s =
      if (status &&& 0x0f).toNat = 0 ∨ touchMaxCount < (status &&& 0x0f).toNat
      then releaseAll (s.acknowledged (status :: more) waits reads writes)
      else framePoll (status &&& 0x0f).toNat (s.acknowledged (status :: more) waits reads writes) := by
  rw [pollTouch_unlocked hready hl hwait, unlockedPoll, State.polled,
    regReadByte_called (an := { s.answers with touchWait := waits }) hread, bind_ok, if_neg hstatus,
    regWrite_called (an := { s.answers with touchWait := waits, regRead := reads }) hwrite, bind_ok]
  rfl

/-! Steps 6 and 7, a frame (R182 to R186). -/

theorem pollTouch_frame {frame : List Byte} (hready : s.tReady = true) (hl : s.touch.locked = false)
    (hwait : s.answers.touchWait = .fired :: waits)
    (hread : s.answers.regRead = some (status :: more) :: some frame :: reads)
    (hwrite : s.answers.regWrite = true :: writes) (hmin : 1 ≤ (status &&& 0x0f).toNat)
    (hmax : (status &&& 0x0f).toNat ≤ 5) :
    pollTouch s =
      framePoll (status &&& 0x0f).toNat (s.acknowledged (status :: more) waits (some frame :: reads) writes) := by
  have hstatus : status ≠ 0 := by
    rintro rfl
    exact absurd hmin (by decide)
  have hvalid : ¬((status &&& 0x0f).toNat = 0 ∨ touchMaxCount < (status &&& 0x0f).toNat) := by
    rw [touchMaxCount]
    omega
  rw [pollTouch_acknowledged hready hl hwait hread hwrite hstatus, if_neg hvalid]

/-- The state of a poll that has read its frame too. -/
def State.frameRead (s : State) (bytes : List Byte) (count : Nat) (frame : List Byte) (waits : List WaitAnswer)
    (reads : List (Option (List Byte))) (writes : List Bool) : State :=
  s.called [pollRecord true, readRecord s.par regTouchStatus 1 bytes, writeRecord s.par regTouchStatus [0x00],
      readRecord s.par regTouchStatus (1 + 8 * count) frame]
    { s.answers with touchWait := waits, regRead := reads, regWrite := writes } (s.drawn + 4)

theorem framePoll_answered (count : Nat) (frame bytes : List Byte) :
    framePoll count (s.acknowledged bytes waits (some frame :: reads) writes) =
      (fieldOr (parseFrame count frame) (s.frameRead bytes count frame waits reads writes)).bind fun rs s2 =>
        if (rs.map TouchRecord.touchId).Nodup then
          orderEvents (classifyFrame rs s2.touch.table).2 (s2.setTable (classifyFrame rs s2.touch.table).1)
        else .refused .duplicateTouchId := by
  rw [framePoll, State.acknowledged, regRead_called (reads := reads) rfl, bind_ok]
  rfl

end

/-! The statements on these paths (R177 to R186). -/

/-- Settles O20: the wait of step 1 does not fire. -/
theorem pollWithoutPendingEvent : Obligations.PollWithoutPendingEvent := by
  unfold Obligations.PollWithoutPendingEvent
  intro s ans rest hready hwait hans
  exact exec_tPoll_of_ok (pollTouch_noEdge hready hwait hans)

/-- Settles O21, by the value of Lock Status. The bare name is the model's operation. -/
theorem Tes.lockedPoll : Obligations.LockedPoll := by
  unfold Obligations.LockedPoll
  intro s status more waits reads hready hl hwait hread
  have hpoll := pollTouch_edge hready hwait
  rw [if_pos hl] at hpoll
  refine ⟨?unlock, ?acknowledge⟩
  case unlock =>
    rintro rfl
    exact exec_tPoll_of_ok (hpoll.trans (lockedPoll_unlock hread))
  case acknowledge =>
    intro hstatus writes hwrite
    exact exec_tPoll_of_ok (hpoll.trans (lockedPoll_acknowledge hread hwrite hstatus))

/-- Settles O22: the poll ends at its status byte. -/
theorem pollOfStatusZero : Obligations.PollOfStatusZero := by
  unfold Obligations.PollOfStatusZero
  intro s more waits reads hready hl hwait hread
  exact exec_tPoll_of_ok ((pollTouch_unlocked hready hl hwait).trans (unlockedPoll_quiet hread))

/-- Settles O23: `ReleaseAll` after the acknowledge. -/
theorem malformedCountReleasesAll : Obligations.MalformedCountReleasesAll := by
  unfold Obligations.MalformedCountReleasesAll
  intro s status more waits reads writes hready hl hwait hread hwrite hstatus hcount
  have hmalformed : (status &&& 0x0f).toNat = 0 ∨ touchMaxCount < (status &&& 0x0f).toNat :=
    hcount.imp_left fun h => by rw [h]; rfl
  obtain ⟨evs, hperm, hrelease⟩ := releaseAll_eq (s.acknowledged (status :: more) waits reads writes)
  have hpoll := pollTouch_acknowledged hready hl hwait hread hwrite hstatus
  rw [if_pos hmalformed, hrelease] at hpoll
  obtain ⟨d, hnext⟩ := exec_tPoll_of_ok hpoll
  have hlength : evs.length = s.touch.table.length := hperm.length_eq.trans (List.length_map _)
  rw [hlength] at hnext
  exact ⟨evs, d, hperm, hnext⟩

/-- Settles O24: the frame is parsed and classified, and its events are presented in some order. -/
theorem validFrameClassification : Obligations.ValidFrameClassification := by
  unfold Obligations.ValidFrameClassification
  intro s status more lead tail reserved recs waits reads writes frame hready hl htable hwait hcount hmin hmax honce
    hlead hreserved hframe hread hwrite
  rw [hcount] at hmin hmax
  have hpoll := pollTouch_frame hready hl hwait hread hwrite hmin hmax
  rw [framePoll_answered, ← hcount, hframe, parseFrame_recordBytes tail hlead hreserved, ← hframe, fieldOr, bind_ok,
    if_pos honce] at hpoll
  obtain ⟨d, hnext⟩ := exec_tPoll_of_ok hpoll
  have hperm := arrange_perm ((s.frameRead (status :: more) recs.length frame waits reads writes).setTable
    (classifyFrame recs s.touch.table).1).nextEventOrder (classifyFrame recs s.touch.table).2
  refine ⟨_, (classifyFrame recs s.touch.table).1, d, hnext,
    fun r hr => tableFind_classifyFrame_record htable honce hr,
    fun i hi => tableFind_classifyFrame_of_not_mem s.touch.table hi,
    (hperm.map TouchEvent.touchId).nodup_iff.mpr (classifyFrame_touchIds_nodup htable honce), fun e => ?_⟩
  exact hperm.mem_iff.trans (mem_classifyFrame_events htable honce e)

/-- Settles O25: the frame is parsed, and its ids are not different. -/
theorem repeatedTouchIdIsRefused : Obligations.RepeatedTouchIdIsRefused := by
  unfold Obligations.RepeatedTouchIdIsRefused
  intro s status more lead tail reserved recs waits reads writes hready hl hwait hcount hmin hmax hrepeated hlead
    hreserved hread hwrite
  rw [hcount] at hmin hmax
  have hpoll := pollTouch_frame hready hl hwait hread hwrite hmin hmax
  rw [framePoll_answered, ← hcount, parseFrame_recordBytes tail hlead hreserved, fieldOr, bind_ok,
    if_neg hrepeated] at hpoll
  exact exec_tPoll_of_refused hpoll

/-- Settles O26: the frame is not parsed. -/
theorem shortFrameIsOutOfRange : Obligations.ShortFrameIsOutOfRange := by
  unfold Obligations.ShortFrameIsOutOfRange
  intro s status more frame waits reads writes hready hl hwait hmin hmax hshort hread hwrite
  have hpoll := pollTouch_frame hready hl hwait hread hwrite hmin hmax
  rw [framePoll_answered, parseFrame_short hshort] at hpoll
  exact exec_tPoll_of_raised hpoll

end Sys2Proof.Machine
end

section
/-! The bytes the panel is sent with the data/command line low (42_eink_sequencer.md R210, 30_encoding.md R107, R109
(f)): what one operation adds to the trace holds no such byte but the fourteen opcodes, whichever level the line had
before it. -/

namespace Sys2Proof.Machine

/-! Records. -/

/-- Bytes follow bytes, from the level of `E_DC` the first records leave. -/
theorem taggedBytes_append (dc : Bool) (a : List Record) :
    ∃ dc', ∀ b, taggedBytes dc (a ++ b) = taggedBytes dc a ++ taggedBytes dc' b := by
  fun_induction taggedBytes dc a with
  | case1 dc => exact ⟨dc, fun _ => rfl⟩
  | case2 _ level es ih => exact ih
  | case3 dc bytes _ es ih =>
    obtain ⟨dc', h⟩ := ih
    exact ⟨dc', fun b => by simp only [List.cons_append, taggedBytes, h, List.append_assoc]⟩
  | case4 dc e es hset hwrite ih =>
    obtain ⟨dc', h⟩ := ih
    exact ⟨dc', fun b => by rw [List.cons_append, taggedBytes.eq_4 _ _ _ hset hwrite, h]⟩

/-- From either level of the line, the bytes sent while it is low are opcodes of R108. -/
def OpcodesOnly (es : List Record) : Prop := ∀ dc b, (false, b) ∈ taggedBytes dc es → b ∈ panelOpcodes

theorem opcodesOnly_of_silent {es : List Record} (h : ∀ dc, taggedBytes dc es = []) : OpcodesOnly es := by
  intro dc b hb
  simp [h] at hb

theorem OpcodesOnly.append {a b : List Record} (ha : OpcodesOnly a) (hb : OpcodesOnly b) : OpcodesOnly (a ++ b) := by
  intro dc x hx
  obtain ⟨dc', h⟩ := taggedBytes_append dc a
  rw [h, List.mem_append] at hx
  exact hx.elim (ha dc x) (hb dc' x)

/-- One write after the line is set: data, or opcodes (R211). -/
theorem opcodesOnly_write {level : Bool} {bytes : List Byte} (h : level = true ∨ ∀ x ∈ bytes, x ∈ panelOpcodes)
    (ok : Bool) : OpcodesOnly [.lineSet .eDc level, .spiWrite bytes ok] := by
  intro dc b hb
  simp only [taggedBytes, List.append_nil, List.mem_map, Prod.mk.injEq] at hb
  obtain ⟨x, hx, hlevel, rfl⟩ := hb
  rcases h with rfl | h
  · exact absurd hlevel (by decide)
  · exact h x hx

/-! Where a piece ends, and what the trace has gained there. -/

/-- The trace has gained records of that kind. -/
def OpcodeTrace (s s' : State) : Prop := ∃ es, s'.trace = s.trace ++ es ∧ OpcodesOnly es

theorem opcodeTrace_of_trace_eq {s s' : State} (h : s'.trace = s.trace) : OpcodeTrace s s' :=
  ⟨[], by rw [h, List.append_nil], opcodesOnly_of_silent fun _ => rfl⟩

/-- A record of another bus or line. -/
theorem opcodeTrace_of_record {s s' : State} {e : Record} (h : s'.trace = s.trace ++ [e])
    (he : ∀ dc, taggedBytes dc [e] = []) : OpcodeTrace s s' :=
  ⟨[e], h, opcodesOnly_of_silent he⟩

theorem OpcodeTrace.trans {a b c : State} (h1 : OpcodeTrace a b) (h2 : OpcodeTrace b c) : OpcodeTrace a c := by
  obtain ⟨es1, ht1, ho1⟩ := h1
  obtain ⟨es2, ht2, ho2⟩ := h2
  exact ⟨es1 ++ es2, by rw [ht2, ht1, List.append_assoc], ho1.append ho2⟩

/-- A piece run from `s`, wherever it ends, an error included. -/
def OnlyOpcodes {α : Type} (s : State) (x : Res α) : Prop := x.ends (OpcodeTrace s) fun _ => OpcodeTrace s

theorem onlyOpcodes_ok {α : Type} {s s' : State} (a : α) (h : s'.trace = s.trace) : OnlyOpcodes s (.ok a s') :=
  opcodeTrace_of_trace_eq h

theorem onlyOpcodes_bind {α β : Type} {s : State} {x : Res α} {k : α → State → Res β} (hx : OnlyOpcodes s x)
    (hk : ∀ a s1, OnlyOpcodes s1 (k a s1)) : OnlyOpcodes s (x.bind k) :=
  ends_bind hx fun a s1 h1 => ends_mono (hk a s1) (fun _ h => h1.trans h) fun _ _ h => h1.trans h

theorem onlyOpcodes_gate {s : State} {φ : Prop} {x : Res Unit} (h : Gate s φ x) : OnlyOpcodes s x :=
  ends_mono h (fun _ h' => opcodeTrace_of_trace_eq (by rw [h'.1])) fun _ _ h' => opcodeTrace_of_trace_eq (by rw [h'.2])

theorem onlyOpcodes_silent {s : State} {x : Res Unit} (h : OnlyOpcodes s x) : OnlyOpcodes s x.silent := silent_ends h

/-- Neither presenting nor raising emits a record (R296). -/
theorem OnlyOpcodes.next {s t : State} {x : Res Results} (hx : OnlyOpcodes s x) (h : x.complete = .next t) :
    OpcodeTrace s t :=
  next_of_ends hx (fun _ _ h' => h'.trans (opcodeTrace_of_trace_eq rfl))
    (fun e s' h' => h'.trans (opcodeTrace_of_trace_eq (State.raise_trace s' e))) h

/-! Pieces of the panel sequencer (R211 to R228). -/

/-- The piece sends only opcodes with the line low, from every state. -/
def OpcodePiece (p : State → Res Unit) : Prop := ∀ s, OnlyOpcodes s (p s)

theorem OpcodePiece.nil : OpcodePiece (inOrder []) := fun _ => onlyOpcodes_ok () rfl

theorem OpcodePiece.cons {p : State → Res Unit} {l : List (State → Res Unit)} (hp : OpcodePiece p)
    (hl : OpcodePiece (inOrder l)) : OpcodePiece (inOrder (p :: l)) :=
  fun s => onlyOpcodes_bind (hp s) fun _ => hl

theorem OpcodePiece.append {l1 l2 : List (State → Res Unit)} (h1 : OpcodePiece (inOrder l1))
    (h2 : OpcodePiece (inOrder l2)) : OpcodePiece (inOrder (l1 ++ l2)) := by
  intro s
  rw [inOrder_append]
  exact onlyOpcodes_bind (h1 s) fun _ => h2

theorem OpcodePiece.map {α : Type} {f : α → State → Res Unit} (h : ∀ a, OpcodePiece (f a)) :
    ∀ l : List α, OpcodePiece (inOrder (l.map f))
  | [] => .nil
  | a :: l => (h a).cons (OpcodePiece.map h l)

/-- Block state written, nothing sent. -/
theorem opcodePiece_set (f : State → State) (h : ∀ s, (f s).trace = s.trace) : OpcodePiece fun s => .ok () (f s) :=
  fun s => onlyOpcodes_ok () (h s)

theorem opcodePiece_emit {e : Record} (he : ∀ dc, taggedBytes dc [e] = []) : OpcodePiece fun s => .ok () (s.emit e) :=
  fun _ => opcodeTrace_of_record rfl he

/-- The line is set and one write follows (R211). -/
theorem opcodePiece_write {level : Bool} {bytes : List Byte} (h : level = true ∨ ∀ x ∈ bytes, x ∈ panelOpcodes) :
    OpcodePiece (inOrder [lineSet .eDc level, spiWrite bytes]) := by
  intro s
  simp only [inOrder_cons, lineSet, bind_ok, spiWrite]
  cases (s.emit (.lineSet .eDc level)).nextSpiWrite with
  | false => exact ⟨_, List.append_assoc _ _ _, opcodesOnly_write h false⟩
  | true => exact ⟨_, List.append_assoc _ _ _, opcodesOnly_write h true⟩

theorem opcodePiece_sendCmd {op : Byte} (hop : op ∈ panelOpcodes) (payload : List Byte) :
    OpcodePiece (sendCmd op payload) := by
  refine OpcodePiece.append (opcodePiece_write (.inr (by simpa using hop))) ?_
  split
  · exact .nil
  · exact opcodePiece_write (.inl rfl)

theorem opcodePiece_waitForBusy : OpcodePiece waitForBusy := by
  have hget (s : State) : OnlyOpcodes s (busyGet s) := opcodeTrace_of_record rfl fun _ => rfl
  have hdrain : OpcodePiece (lineDrain .eBusy) := opcodePiece_emit fun _ => rfl
  have hwait (tm : Timeout) (s : State) : OnlyOpcodes s (busyWait tm s) := by
    unfold busyWait lineWait
    cases waitResult tm s.nextBusyWait with
    | none => trivial
    | some b => exact opcodeTrace_of_record rfl fun _ => rfl
  refine fun s => onlyOpcodes_bind (hget s) fun busy s1 => ?_
  split
  · exact onlyOpcodes_bind (hdrain s1) fun _ s2 => onlyOpcodes_bind (hwait _ s2) fun _ s3 => hdrain s3
  · exact onlyOpcodes_ok () rfl

theorem opcodePiece_resetAction : ∀ a : ResetAction, OpcodePiece (resetAction a)
  | .setLine _ => opcodePiece_emit fun _ => rfl
  | .pause _ => opcodePiece_emit fun _ => rfl

theorem opcodePiece_hwReset : OpcodePiece hwReset := fun s => OpcodePiece.map opcodePiece_resetAction _ s

theorem opcodePiece_waveformCommands : ∀ m : RefreshMode, OpcodePiece (inOrder (waveformCommands m))
  | .fullMode => (opcodePiece_sendCmd (by decide) _).cons ((opcodePiece_sendCmd (by decide) _).cons
      ((opcodePiece_sendCmd (by decide) _).cons .nil))
  | .partialMode => (opcodePiece_sendCmd (by decide) _).cons .nil

theorem opcodePiece_sendDataInputMode : OpcodePiece sendDataInputMode := fun s => opcodePiece_sendCmd (by decide) _ s

theorem opcodePiece_sendDriverOutputControl : OpcodePiece sendDriverOutputControl :=
  fun s => opcodePiece_sendCmd (by decide) _ s

theorem opcodePiece_applyConfig (m : RefreshMode) : OpcodePiece (applyConfig m) := by
  have hsoftReset : OpcodePiece (sendCmd 0x12 []) := opcodePiece_sendCmd (by decide) []
  have hreset := opcodePiece_hwReset.cons (hsoftReset.cons (opcodePiece_waitForBusy.cons
    (opcodePiece_sendDataInputMode.cons (opcodePiece_sendDriverOutputControl.cons .nil))))
  exact (hreset.append (opcodePiece_waveformCommands m)).append (opcodePiece_waitForBusy.cons .nil)

theorem opcodePiece_refreshDisplay (m : RefreshMode) : OpcodePiece (refreshDisplay m) :=
  (opcodePiece_sendCmd (by decide) _).cons ((opcodePiece_sendCmd (by decide) _).cons
    (opcodePiece_waitForBusy.cons .nil))

theorem opcodePiece_setDrawRegion (x0 y0 x1 y1 : Nat) : OpcodePiece (setDrawRegion x0 y0 x1 y1) :=
  (opcodePiece_sendCmd (by decide) _).cons ((opcodePiece_sendCmd (by decide) _).cons .nil)

theorem opcodePiece_setDrawOffset (ox oy : Nat) : OpcodePiece (setDrawOffset ox oy) :=
  (opcodePiece_sendCmd (by decide) _).cons ((opcodePiece_sendCmd (by decide) _).cons .nil)

theorem opcodePiece_uploadFull (data : List Byte) : OpcodePiece (uploadFull data) := fun s =>
  ((opcodePiece_setDrawRegion _ _ _ _).cons ((opcodePiece_setDrawOffset 0 0).cons
    ((opcodePiece_sendCmd (by decide) data).cons .nil))) s

/-- The row's data follow their command by a write of their own, with the line high (R228). -/
theorem opcodePiece_uploadRow (o : Overlap) (px py : Int) (bw bh : BitVec 16) (din : List Byte) (r : Nat) :
    OpcodePiece (uploadRow o px py bw bh din r) := fun s =>
  ((opcodePiece_setDrawOffset _ _).cons ((opcodePiece_sendCmd (by decide) []).cons
    (opcodePiece_write (.inl rfl)))) s

theorem opcodePiece_uploadBitmap (px py : Int) (bw bh : BitVec 16) (din : List Byte) :
    OpcodePiece (uploadBitmap px py bw bh din) := by
  intro s
  unfold uploadBitmap
  dsimp only
  split
  · exact onlyOpcodes_ok () rfl
  · exact (opcodePiece_setDrawRegion _ _ _ _).cons (OpcodePiece.map (opcodePiece_uploadRow _ px py bw bh din) _) s

/-! The scheduler (R250 to R253). -/

theorem opcodePiece_postUpload : OpcodePiece postUpload := by
  have hcount0 : OpcodePiece fun s => .ok () (s.setPartialCount 0) := opcodePiece_set _ fun _ => rfl
  have hended : OpcodePiece fun s => .ok () (s.setAutoRefreshing false) := opcodePiece_set _ fun _ => rfl
  have hcount : OpcodePiece fun s => .ok () (s.setPartialCount (s.panel.partialRefreshCount + 1)) :=
    opcodePiece_set _ fun _ => rfl
  intro s
  unfold postUpload
  split
  · exact opcodePiece_refreshDisplay _ s
  split
  · exact opcodePiece_refreshDisplay _ s
  split
  · split
    · exact (opcodePiece_refreshDisplay _).cons (hcount0.cons (hended.cons ((opcodePiece_applyConfig _).cons .nil))) s
    · exact (opcodePiece_refreshDisplay _).cons (hcount0.cons (hended.cons .nil)) s
  · exact (opcodePiece_refreshDisplay _).cons (hcount.cons .nil) s

theorem opcodePiece_preUploadWith {white : State → Res Unit} (hwhite : OpcodePiece white) :
    OpcodePiece (preUploadWith white) := by
  intro s
  unfold preUploadWith
  split; · exact onlyOpcodes_ok () rfl
  split; · exact onlyOpcodes_ok () rfl
  split; · exact onlyOpcodes_ok () rfl
  split; · exact onlyOpcodes_ok () rfl
  split
  · exact opcodePiece_applyConfig .fullMode (s.setAutoRefreshing true)
  · exact hwhite (s.setAutoRefreshing true)

theorem opcodePiece_uploadWith {pre body : State → Res Unit} (hpre : OpcodePiece pre) (hbody : OpcodePiece body) :
    OpcodePiece (uploadWith pre body) := hpre.cons (hbody.cons (opcodePiece_postUpload.cons .nil))

theorem opcodePiece_upload {body : State → Res Unit} (hbody : OpcodePiece body) :
    OpcodePiece (uploadWith preUpload body) := by
  have hnested : OpcodePiece nestedClear :=
    opcodePiece_uploadWith (opcodePiece_preUploadWith (opcodePiece_set id fun _ => rfl)) fun s =>
      opcodePiece_uploadFull _ s
  exact opcodePiece_uploadWith (opcodePiece_preUploadWith hnested) hbody

/-! The operations of ERS. -/

theorem opcodePiece_ready : OpcodePiece requirePanelReady := fun s => onlyOpcodes_gate (gate_panelReady s)

theorem opcodePiece_size (w h : BitVec 16) : OpcodePiece (requireSize w h) :=
  fun s => onlyOpcodes_gate (gate_size w h s)

theorem opcodePiece_setMode (m : RefreshMode) : OpcodePiece (setMode m) := by
  have hcount : OpcodePiece fun s => .ok () (if m = .fullMode then s.setPartialCount 0 else s) :=
    opcodePiece_set _ fun s => by split <;> rfl
  exact opcodePiece_ready.cons ((opcodePiece_set (State.setRefreshMode · m) fun _ => rfl).cons
    (hcount.cons ((opcodePiece_applyConfig m).cons .nil)))

theorem opcodePiece_initPanel (w h : BitVec 16) : OpcodePiece (initPanel w h) := by
  have hsetup : OpcodePiece (emitAll configRecords) := fun s =>
    ⟨configRecords, by simp [configRecords, State.emit], opcodesOnly_of_silent fun _ => rfl⟩
  have hready (b : Bool) : OpcodePiece fun s => .ok () (s.setEReady b) := opcodePiece_set _ fun _ => rfl
  have hstate : OpcodePiece fun s => .ok () { s with panel := initialPanel s.par w h } :=
    opcodePiece_set _ fun _ => rfl
  exact (opcodePiece_size w h).cons ((hready false).cons (hsetup.cons
    (hstate.cons ((opcodePiece_applyConfig _).cons ((hready true).cons .nil)))))

/-- An operation that writes one piece of state on a ready unit. -/
theorem opcodePiece_readySet (f : State → State) (h : ∀ s, (f s).trace = s.trace) :
    OpcodePiece (inOrder [requirePanelReady, fun s => .ok () (f s)]) :=
  opcodePiece_ready.cons ((opcodePiece_set f h).cons .nil)

theorem opcodePiece_setAuto (p : RefreshPolicy) : OpcodePiece (setAuto p) :=
  opcodePiece_readySet (State.setAutoRefreshMode · p) fun _ => rfl

theorem opcodePiece_clearPanel (toBlack : Bool) : OpcodePiece (clearPanel toBlack) := fun s =>
  opcodePiece_upload (opcodePiece_uploadFull _) s

theorem opcodePiece_putBitmap (px py : Int) (bw bh : BitVec 16) (din : List Byte) :
    OpcodePiece (inOrder [requirePanelReady, requireBitmap bw bh din, requireOffsets px py bw bh,
      uploadWith preUpload (uploadBitmap px py bw bh din)]) := by
  have hbitmap : OpcodePiece (requireBitmap bw bh din) := fun s => onlyOpcodes_gate (gate_bitmap bw bh din s)
  have hoffsets : OpcodePiece (requireOffsets px py bw bh) := fun s => onlyOpcodes_gate (gate_offsets px py bw bh s)
  exact opcodePiece_ready.cons (hbitmap.cons (hoffsets.cons
    ((opcodePiece_upload (opcodePiece_uploadBitmap px py bw bh din)).cons .nil)))

/-- An operation of ERS without result ports. -/
theorem OpcodePiece.next {p : State → Res Unit} (hp : OpcodePiece p) {s t : State}
    (h : (p s).silent.complete = .next t) : OpcodeTrace s t := (onlyOpcodes_silent (hp s)).next h

/-! Unit TES has a bus and lines of its own. -/

theorem onlyOpcodes_regRead (reg : BitVec 16) (n : Nat) (s : State) : OnlyOpcodes s (regRead reg n s) := by
  unfold regRead
  cases s.nextRegRead with
  | none => exact opcodeTrace_of_record rfl fun _ => rfl
  | some bytes => exact opcodeTrace_of_record rfl fun _ => rfl

theorem onlyOpcodes_regWrite (reg : BitVec 16) (payload : List Byte) (s : State) :
    OnlyOpcodes s (regWrite reg payload s) := by
  unfold regWrite
  cases s.nextRegWrite with
  | false => exact opcodeTrace_of_record rfl fun _ => rfl
  | true => exact opcodeTrace_of_record rfl fun _ => rfl

theorem onlyOpcodes_fieldOr {α : Type} (f : Option α) (s : State) : OnlyOpcodes s (fieldOr f s) := by
  cases f with
  | none => exact opcodeTrace_of_trace_eq rfl
  | some a => exact onlyOpcodes_ok a rfl

theorem onlyOpcodes_regReadExact (reg : BitVec 16) (n : Nat) (s : State) : OnlyOpcodes s (regReadExact reg n s) :=
  onlyOpcodes_bind (onlyOpcodes_regRead reg n s) fun _ s1 => onlyOpcodes_fieldOr _ s1

theorem onlyOpcodes_regReadByte (reg : BitVec 16) (s : State) : OnlyOpcodes s (regReadByte reg s) :=
  onlyOpcodes_bind (onlyOpcodes_regReadExact reg 1 s) fun _ _ => onlyOpcodes_ok _ rfl

theorem onlyOpcodes_readAccess (reg : BitVec 16) (n : Nat) (s : State) : OnlyOpcodes s (readAccess reg n s) :=
  onlyOpcodes_bind (onlyOpcodes_regReadExact reg n s) fun _ _ => onlyOpcodes_ok _ rfl

theorem onlyOpcodes_touchWait (tm : Timeout) (s : State) : OnlyOpcodes s (touchWait tm s) := by
  unfold touchWait lineWait
  cases waitResult tm s.nextTouchWait with
  | none => trivial
  | some b => exact opcodeTrace_of_record rfl fun _ => rfl

theorem onlyOpcodes_touchReady (s : State) : OnlyOpcodes s (requireTouchReady s) :=
  onlyOpcodes_gate (gate_touchReady s)

theorem onlyOpcodes_touchResetSequence (s : State) : OnlyOpcodes s (touchResetSequence s) := by
  rw [touchResetSequence_eq]
  exact ⟨_, rfl, opcodesOnly_of_silent fun _ => rfl⟩

theorem onlyOpcodes_lockTouch (s : State) : OnlyOpcodes s (lockTouch s) :=
  onlyOpcodes_bind (onlyOpcodes_touchReady s) fun _ s1 =>
    onlyOpcodes_bind (onlyOpcodes_regWrite _ _ s1) fun _ _ => onlyOpcodes_ok () rfl

theorem onlyOpcodes_readConfig (answer : List Byte) (s : State) : OnlyOpcodes s (readConfig answer s) := by
  refine onlyOpcodes_bind (onlyOpcodes_fieldOr _ s) fun _ s1 => ?_
  refine onlyOpcodes_bind (onlyOpcodes_fieldOr _ (s1.setCfg _)) fun _ s2 => ?_
  exact onlyOpcodes_bind (onlyOpcodes_fieldOr _ (s2.setCfg _)) fun _ _ => onlyOpcodes_ok () rfl

theorem onlyOpcodes_initTouch (s : State) : OnlyOpcodes s (initTouch s) := by
  refine onlyOpcodes_bind (onlyOpcodes_touchResetSequence (s.setTReady false)) fun _ s1 => ?_
  refine onlyOpcodes_bind (onlyOpcodes_regReadExact regId 4 (s1.setLocked false)) fun ident s2 => ?_
  split
  · exact opcodeTrace_of_trace_eq rfl
  · exact onlyOpcodes_bind (onlyOpcodes_regRead _ _ s2) fun _ s3 =>
      onlyOpcodes_bind (onlyOpcodes_readConfig _ s3) fun _ _ => onlyOpcodes_ok () rfl

theorem onlyOpcodes_lockedPoll (s : State) : OnlyOpcodes s (lockedPoll s) := by
  refine onlyOpcodes_bind (onlyOpcodes_regReadByte _ s) fun status s1 => ?_
  split
  · exact onlyOpcodes_bind (onlyOpcodes_touchResetSequence s1) fun _ _ => onlyOpcodes_ok _ rfl
  · exact onlyOpcodes_bind (onlyOpcodes_regWrite _ _ s1) fun _ _ => onlyOpcodes_ok _ rfl

theorem onlyOpcodes_framePoll (count : Nat) (s : State) : OnlyOpcodes s (framePoll count s) := by
  refine onlyOpcodes_bind (onlyOpcodes_regRead _ _ s) fun frame s1 => ?_
  refine onlyOpcodes_bind (onlyOpcodes_fieldOr _ s1) fun rs s2 => ?_
  split
  · exact onlyOpcodes_ok _ rfl
  · trivial

theorem onlyOpcodes_unlockedPoll (s : State) : OnlyOpcodes s (unlockedPoll s) := by
  refine onlyOpcodes_bind (onlyOpcodes_regReadByte _ s) fun status s1 => ?_
  split
  · exact onlyOpcodes_ok _ rfl
  · refine onlyOpcodes_bind (onlyOpcodes_regWrite _ _ s1) fun _ s2 => ?_
    dsimp only
    split
    · exact onlyOpcodes_ok _ rfl
    · exact onlyOpcodes_framePoll _ s2

theorem onlyOpcodes_pollTouch (s : State) : OnlyOpcodes s (pollTouch s) := by
  refine onlyOpcodes_bind (onlyOpcodes_touchReady s) fun _ s1 => ?_
  refine onlyOpcodes_bind (onlyOpcodes_touchWait _ s1) fun pending s2 => ?_
  split
  · exact onlyOpcodes_ok _ rfl
  split
  · exact onlyOpcodes_lockedPoll s2
  · exact onlyOpcodes_unlockedPoll s2

/-! Every instruction. -/

/-- Unit BBC has no bus. -/
theorem opcodeTrace_of_bbc {i : Instr} {s t : State} (hunit : unitOf i = .bbc) (h : exec i s = .next t) :
    OpcodeTrace s t := by
  cases exec_unitNext h with
  | codec _ _ _ _ calls => exact opcodeTrace_of_trace_eq calls.1
  | touch unit => exact absurd (hunit.symm.trans unit) (by decide)
  | panel unit => exact absurd (hunit.symm.trans unit) (by decide)

theorem exec_opcodeTrace {i : Instr} {s t : State} (h : exec i s = .next t) : OpcodeTrace s t := by
  cases i with
  | bTobe1 | bTobe2 | bTobe4 | bTobe8 | bTole1 | bTole2 | bTole4 | bTole8 | bWrapLe | bWrapBe | bRead1 | bRead2 | bRead4
  | bRead8 | bWrite1 | bWrite2 | bWrite4 | bWrite8 | bSeekBeg | bSeekCur | bSeekEnd | bTell | bDump =>
    exact opcodeTrace_of_bbc rfl h
  | tInit => exact (onlyOpcodes_silent (onlyOpcodes_initTouch s)).next h
  | tCfg => exact (onlyOpcodes_bind (onlyOpcodes_touchReady s) fun _ _ => onlyOpcodes_ok _ rfl).next h
  | tLock => exact (onlyOpcodes_silent (onlyOpcodes_lockTouch s)).next h
  | tWait =>
    exact (onlyOpcodes_bind (onlyOpcodes_touchReady s) fun _ s1 =>
      onlyOpcodes_bind (onlyOpcodes_touchWait _ s1) fun _ _ => onlyOpcodes_ok _ rfl).next h
  | tPoll => exact (onlyOpcodes_bind (onlyOpcodes_pollTouch s) fun _ _ => onlyOpcodes_ok _ rfl).next h
  | touchIdRead | touchConfigRead | touchStatusRead | touchFrameRead | touchLockstatusRead =>
    exact (onlyOpcodes_readAccess _ _ s).next h
  | touchStatusAck | touchLockctlWrite | touchLockstatusAck =>
    exact (onlyOpcodes_silent (onlyOpcodes_regWrite _ _ s)).next h
  | eInit w h' => exact (opcodePiece_initPanel w h').next h
  | eSetsize w h' =>
    exact (opcodePiece_ready.cons ((opcodePiece_size w h').cons
      ((opcodePiece_set (State.setSize · w h') fun _ => rfl).cons .nil))).next h
  | eGeom => exact (onlyOpcodes_bind (opcodePiece_ready s) fun _ _ => onlyOpcodes_ok _ rfl).next h
  | eSetmodeP | eSetmodeF => exact (opcodePiece_setMode _).next h
  | eSetautoNone | eSetautoFull | eSetautoWhite =>
    exact (opcodePiece_setAuto _).next h
  | eSetmax n => exact (opcodePiece_readySet (State.setMaxPartial · n) fun _ => rfl).next h
  | eClearW | eClearB => exact (opcodePiece_ready.cons ((opcodePiece_clearPanel _).cons .nil)).next h
  | eRawfb din =>
    exact (opcodePiece_ready.cons ((opcodePiece_upload (opcodePiece_uploadFull din)).cons .nil)).next h
  | ePutbmp px py bw bh din => exact (opcodePiece_putBitmap px.toInt py.toInt bw bh din).next h
  | ePoweroff => exact (opcodePiece_ready.cons ((opcodePiece_sendCmd (by decide) _).cons .nil)).next h
  | epdDriverOutputControl => exact opcodePiece_sendDriverOutputControl.next h
  | epdDataInputMode => exact opcodePiece_sendDataInputMode.next h
  | epdDeepSleep | epdSoftReset | epdTemperatureSource | epdBeginUpdate | epdDisplayUpdateControl1
  | epdDisplayUpdateControl2 | epdUploadImageData | epdBorderWaveformControl | epdDrawRegionX | epdDrawRegionY
  | epdDrawOffsetX | epdDrawOffsetY => exact (opcodePiece_sendCmd (by decide) _).next h

/-- Settles O35: each piece of an operation, failed calls included, adds only records whose low bytes are opcodes. -/
theorem onlyTheFourteenOpcodes : Obligations.OnlyTheFourteenOpcodes := fun _ _ _ h => exec_opcodeTrace h

end Sys2Proof.Machine
end

section
/-! `wait_for_busy` by what the line answers (42_eink_sequencer.md R212). -/

namespace Sys2Proof.Machine

theorem waitForBusy_idle {s : State} {levels : List Bool} (hlevel : s.answers.busyLevel = false :: levels) :
    waitForBusy s = .ok () (s.called [.lineGet .eBusy false] { s.answers with busyLevel := levels } (s.drawn + 1)) := by
  simp only [waitForBusy, busyGet, State.nextBusyLevel, hlevel, List.headD_cons, List.tail_cons, bind_ok,
    Bool.false_eq_true, if_false]
  rfl

section
variable {s : State} {levels : List Bool} {ans : WaitAnswer} {waits : List WaitAnswer}

/-- The line reads asserted and the wait ends: the sequence goes on, the wait's boolean discarded. -/
theorem waitForBusy_answered {b : Bool} (hlevel : s.answers.busyLevel = true :: levels)
    (hwait : s.answers.busyWait = ans :: waits) (hb : waitResult s.par.busyTimeout ans = some b) :
    waitForBusy s = .ok () (s.called
      [.lineGet .eBusy true, .lineDrain .eBusy, .lineWait .eBusy s.par.busyTimeout b, .lineDrain .eBusy]
      { s.answers with busyLevel := levels, busyWait := waits } (s.drawn + 2)) := by
  simp only [waitForBusy, busyGet, State.nextBusyLevel, hlevel, List.headD_cons, List.tail_cons, bind_ok, if_true,
    lineDrain, busyWait, State.nextBusyWait, lineWait, State.emit, State.afterDraw, hwait, hb]
  simp [State.called]

theorem waitForBusy_never (hlevel : s.answers.busyLevel = true :: levels) (hwait : s.answers.busyWait = .never :: waits)
    (hunset : s.par.busyTimeout = .unset) : waitForBusy s = .stuck .waitNeverAnswered := by
  simp only [waitForBusy, busyGet, State.nextBusyLevel, hlevel, List.headD_cons, bind_ok, if_true, lineDrain, busyWait,
    State.nextBusyWait, lineWait, State.emit, State.afterDraw, hwait, hunset, waitResult, bind_stuck]

end

/-- No piece of it can raise: reading a level, draining and waiting have no failure (R306). -/
theorem waitForBusy_raises_nothing (s : State) : (waitForBusy s).ends (fun _ => True) fun _ _ => False := by
  refine ends_bind (P := fun _ => True) trivial fun busy s1 _ => ?_
  split
  · refine ends_bind (P := fun _ => True) trivial fun _ s2 _ => ?_
    refine ends_bind (P := fun _ => True) ?_ fun _ _ _ => trivial
    unfold busyWait lineWait
    cases waitResult s2.par.busyTimeout s2.nextBusyWait <;> trivial
  · trivial

/-- Settles O41: the level, then the wait that ends or does not. The bare name is that of the procedure. -/
theorem Ers.waitForBusy : Obligations.WaitForBusy := by
  unfold Obligations.WaitForBusy
  intro s levels
  refine ⟨waitForBusy_idle, fun ans waits hlevel hwait h => ?_, fun waits => waitForBusy_never, fun e t h => ?_⟩
  · exact waitForBusy_answered hlevel hwait (waitResult_eq h)
  · have hends := waitForBusy_raises_nothing s
    rwa [h] at hends

end Sys2Proof.Machine
end

section
/-! The operations of the sequencer on each of their paths: `E.INIT`, `E.SETSIZE`, `E.GEOM`, `E.POWEROFF`, and the checks
of `E.PUTBMP` (42_eink_sequencer.md R217 to R229). -/

namespace Sys2Proof.Machine

/-! The gate (R299) and the size (R217, R218). -/

/-- On a ready unit the gate of R299 is passed. -/
theorem inOrder_ready {s : State} (hready : s.eReady = true) (l : List (State → Res Unit)) :
    inOrder (requirePanelReady :: l) s = inOrder l s := by
  rw [inOrder_cons, requirePanelReady_of s hready, bind_ok]

theorem inOrder_notReady {s : State} (hready : s.eReady = false) (l : List (State → Res Unit)) :
    inOrder (requirePanelReady :: l) s = .raised .notReady s := by
  rw [inOrder_cons, requirePanelReady_not s hready, bind_raised]

/-- An operation of ERS that needs the unit ready, on an unready one. -/
theorem panelNotReady_next {s : State} (hready : s.eReady = false) (l : List (State → Res Unit)) :
    ∃ r o d, (inOrder (requirePanelReady :: l) s).silent.complete =
      .next { s with st := 6, r := r, dout := o, drawn := d } :=
  silent_raised_next (inOrder_notReady hready l)

theorem requireSize_of {w h : BitVec 16} (hw : w ≠ 0) (hh : h ≠ 0) (s : State) : requireSize w h s = .ok () s :=
  if_neg (not_or.mpr ⟨hw, hh⟩)

theorem requireSize_zero {w h : BitVec 16} (hzero : w = 0 ∨ h = 0) (s : State) :
    requireSize w h s = .raised .outOfRange s := if_pos hzero

/-! `E.SETSIZE` (R218). -/

theorem setSize_accepted {w h : BitVec 16} (hw : w ≠ 0) (hh : h ≠ 0) (s : State) :
    inOrder [requireSize w h, fun s1 => .ok () (s1.setSize w h)] s = .ok () (s.setSize w h) := by
  rw [inOrder_cons, requireSize_of hw hh, bind_ok, inOrder_singleton]

theorem exec_eSetsize (w h : BitVec 16) (s : State) :
    exec (.eSetsize w h) s =
      (inOrder [requirePanelReady, requireSize w h, fun s1 => .ok () (s1.setSize w h)] s).silent.complete := rfl

/-- Settles O38, by the gate and the size. -/
theorem setDisplaySize : Obligations.SetDisplaySize := by
  unfold Obligations.SetDisplaySize
  intro s w h
  rw [exec_eSetsize]
  refine ⟨fun hready hw hh => silent_next (t := s.setSize w h) ?_,
    fun hready hzero => silent_raised_next (e := .outOfRange) ?_,
    fun hready => panelNotReady_next hready _, fun _ _ _ => rfl⟩
  · rw [inOrder_ready hready, setSize_accepted hw hh]
  · rw [inOrder_ready hready, inOrder_cons, requireSize_zero hzero, bind_raised]

/-! `E.GEOM` (R219). -/

theorem geometryWord_fields (p : PanelUnit) :
    (geometryWord p).extractLsb' 0 16 = 0 ∧ (geometryWord p).extractLsb' 16 16 = 0 ∧
      (geometryWord p).extractLsb' 32 16 = p.width - 1 ∧ (geometryWord p).extractLsb' 48 16 = p.height - 1 := by
  have above16 {start len : Nat} (h : 16 ≤ start) : (geometryWord p).extractLsb' start len =
      ((p.height - 1) ++ (p.width - 1) ++ (0 : BitVec 16)).extractLsb' (start - 16) len :=
    BitVec.extractLsb'_append_eq_of_le h
  have above32 {start len : Nat} (h : 32 ≤ start) : (geometryWord p).extractLsb' start len =
      ((p.height - 1) ++ (p.width - 1)).extractLsb' (start - 32) len := by
    rw [above16 (by omega), BitVec.extractLsb'_append_eq_of_le (by omega), Nat.sub_sub]
  refine ⟨BitVec.extractLsb'_append_eq_right, ?_, ?_, ?_⟩
  · rw [above16 (by decide)]
    exact BitVec.extractLsb'_append_eq_right
  · rw [above32 (by decide)]
    exact BitVec.extractLsb'_append_eq_right
  · rw [above32 (by decide), BitVec.extractLsb'_append_eq_of_le (by decide)]
    exact BitVec.extractLsb'_eq_self

theorem exec_eGeom (s : State) :
    exec .eGeom s = ((requirePanelReady s).bind fun _ s1 => withR (geometryWord s1.panel) s1).complete := rfl

/-- Settles O39: the geometry's word by its fields, or the gate. -/
theorem displayGeometry : Obligations.DisplayGeometry := by
  unfold Obligations.DisplayGeometry
  intro s
  rw [exec_eGeom]
  refine ⟨fun hready => ?_, fun hready => raised_next (e := .notReady) ?_, fun _ _ _ => rfl⟩
  · rw [requirePanelReady_of s hready, bind_ok]
    obtain ⟨o, d, hnext⟩ := withR_next (rfl : withR (geometryWord s.panel) s = _)
    exact ⟨_, o, d, hnext, geometryWord_fields s.panel⟩
  · rw [requirePanelReady_not s hready, bind_raised]

/-! `SendCmd` where a write fails (R211, R296), and `E.POWEROFF` (R229). -/

theorem spiWrite_ok {s : State} {rest : List Bool} (bytes : List Byte) (h : s.answers.spiWrite = true :: rest) :
    spiWrite bytes s =
      .ok () (s.called [.spiWrite bytes true] { s.answers with spiWrite := rest } (s.drawn + 1)) := by
  simp only [spiWrite, State.nextSpiWrite, h, List.headD_cons, List.tail_cons, if_true]
  rfl

theorem spiWrite_failed {s : State} {rest : List Bool} (bytes : List Byte) (h : s.answers.spiWrite = false :: rest) :
    spiWrite bytes s = .raised (.transportError .panelUnit)
      (s.called [.spiWrite bytes false] { s.answers with spiWrite := rest } (s.drawn + 1)) := by
  simp only [spiWrite, State.nextSpiWrite, h, List.headD_cons, List.tail_cons, Bool.false_eq_true, if_false]
  rfl

section
variable {s : State} {op : Byte} {payload : List Byte} {rest : List Bool}

theorem sendCmd_opcodeFails (h : s.answers.spiWrite = false :: rest) :
    sendCmd op payload s = .raised (.transportError .panelUnit)
      (s.called [.lineSet .eDc false, .spiWrite [op] false] { s.answers with spiWrite := rest } (s.drawn + 1)) := by
  have hwrite := spiWrite_failed (s := s.emit (.lineSet .eDc false)) [op] h
  rw [sendCmd, List.cons_append, inOrder_cons, lineSet, bind_ok, List.cons_append, inOrder_cons, hwrite, bind_raised]
  simp [State.called, State.emit]

theorem sendCmd_payloadFails (hp : payload ≠ []) (h : s.answers.spiWrite = true :: false :: rest) :
    sendCmd op payload s = .raised (.transportError .panelUnit)
      (s.called [.lineSet .eDc false, .spiWrite [op] true, .lineSet .eDc true, .spiWrite payload false]
        { s.answers with spiWrite := rest } (s.drawn + 2)) := by
  have hop := spiWrite_ok (s := s.emit (.lineSet .eDc false)) [op] h
  have hpayload (u : State) (hu : u.answers.spiWrite = false :: rest) :=
    spiWrite_failed (s := u.emit (.lineSet .eDc true)) payload hu
  simp only [sendCmd, if_neg hp, List.cons_append, List.nil_append, inOrder_cons, lineSet, bind_ok, hop]
  rw [hpayload _ rfl, bind_raised]
  simp [State.called, State.emit]

end

theorem exec_ePoweroff (s : State) :
    exec .ePoweroff s = (inOrder [requirePanelReady, sendCmd 0x10 [0x01]] s).silent.complete := rfl

/-- Settles O40: the gate, then the command with both writes answered, or a write that fails. -/
theorem powerOff : Obligations.PowerOff := by
  unfold Obligations.PowerOff
  intro s
  have hready_eq (hready : s.eReady = true) :
      inOrder [requirePanelReady, sendCmd 0x10 [0x01]] s = sendCmd 0x10 [0x01] s := by
    rw [inOrder_ready hready, inOrder_singleton]
  have hqueue {n : Nat} {a : List Bool} (h : s.answers.spiWrite.take n = a) :
      s.answers.spiWrite = a ++ s.answers.spiWrite.drop n := by rw [← h, List.take_append_drop]
  rw [exec_ePoweroff]
  refine ⟨fun hready hwrites => ?_, fun hready hwrites => ?_, fun hready hwrites => ?_,
    fun hready => panelNotReady_next hready _, fun _ _ _ => rfl⟩
  · rw [hready_eq hready]
    exact sendCmd_next rfl s ⟨hwrites, rfl⟩
  · rw [hready_eq hready]
    exact ⟨_, silent_raised_next (sendCmd_opcodeFails (hqueue hwrites))⟩
  · rw [hready_eq hready]
    exact ⟨_, silent_raised_next (sendCmd_payloadFails (by decide) (hqueue hwrites))⟩

/-! The checks of `E.PUTBMP` (R222, R225, R228). -/

theorem inOrder_bitmapOk {s : State} {bw bh : BitVec 16} {din : List Byte} (hbitmap : bitmapOk bw bh din = true)
    (l : List (State → Res Unit)) : inOrder (requireBitmap bw bh din :: l) s = inOrder l s := by
  rw [inOrder_cons, requireBitmap, if_pos hbitmap, bind_ok]

/-- A bitmap whose data and offsets are as R225 and R222 ask passes both checks. -/
theorem inOrder_bitmapAccepted {s : State} {px py : Int} {bw bh : BitVec 16} {din : List Byte}
    (hbitmap : bitmapOk bw bh din = true)
    (hoffsets : regionOffsetsOk s.par s.panel (overlapOf s.panel px py bw bh) = true) (l : List (State → Res Unit)) :
    inOrder (requireBitmap bw bh din :: requireOffsets px py bw bh :: l) s = inOrder l s := by
  rw [inOrder_bitmapOk hbitmap, inOrder_cons, requireOffsets, if_pos hoffsets, bind_ok]

theorem inOrder_bitmapMalformed {s : State} {bw bh : BitVec 16} {din : List Byte}
    (hbitmap : din.length ≠ rowStride bw.toNat * bh.toNat) (l : List (State → Res Unit)) :
    inOrder (requireBitmap bw bh din :: l) s = .raised .outOfRange s := by
  rw [inOrder_cons, requireBitmap, bitmapOk, decide_eq_false hbitmap]
  rfl

theorem inOrder_offsetsRefused {s : State} {px py : Int} {bw bh : BitVec 16}
    (hoffsets : regionOffsetsOk s.par s.panel (overlapOf s.panel px py bw bh) = false) (l : List (State → Res Unit)) :
    inOrder (requireOffsets px py bw bh :: l) s = .refused .rowOffsetOutOfRange := by
  rw [inOrder_cons, requireOffsets, hoffsets]
  rfl

/-- One row without an offset is enough (R222). -/
theorem regionOffsetsOk_eq_false {par : Params} {p : PanelUnit} {o : Overlap} {row : Nat}
    (hempty : overlapEmpty o = false) (hrow : row < overlapHeight o)
    (hout : offsetBaseW par p.width - 2 - o.cx0 < 0 ∨ offsetBaseH par p.height - row - o.cy0 < 0 ∨
      65535 < offsetBaseH par p.height - row - o.cy0) : regionOffsetsOk par p o = false := by
  rw [regionOffsetsOk, hempty, Bool.false_or, List.all_eq_false]
  refine ⟨row, List.mem_range.mpr hrow, ?_⟩
  simp only [rowOffsetOk, Bool.and_eq_true, decide_eq_true_iff]
  simp only [rowOffset]
  omega

theorem exec_ePutbmp (px py : BitVec 32) (bw bh : BitVec 16) (din : List Byte) (s : State) :
    exec (.ePutbmp px py bw bh din) s =
      (inOrder
        [requirePanelReady, requireBitmap bw bh din, requireOffsets px.toInt py.toInt bw bh,
         uploadWith preUpload (uploadBitmap px.toInt py.toInt bw bh din)] s).silent.complete := rfl

/-- Settles O50: the first check after the gate. -/
theorem malformedBitmapIsOutOfRange : Obligations.MalformedBitmapIsOutOfRange := by
  unfold Obligations.MalformedBitmapIsOutOfRange
  intro s px py bw bh din hready hlen
  rw [exec_ePutbmp, inOrder_ready hready, inOrder_bitmapMalformed hlen]
  exact silent_raised_next (e := .outOfRange) rfl

/-- Settles O51: the second check, which no error ends. -/
theorem rowOffsetOutsideIsRefused : Obligations.RowOffsetOutsideIsRefused := by
  unfold Obligations.RowOffsetOutsideIsRefused
  rintro s px py bw bh din o row hready hlen rfl hempty hrow hout
  rw [exec_ePutbmp, inOrder_ready hready, inOrder_bitmapOk (decide_eq_true hlen),
    inOrder_offsetsRefused (regionOffsetsOk_eq_false hempty hrow hout)]
  rfl

/-! `E.INIT` (R217). -/

/-- `E.INIT` up to its `apply_config`: not ready, the records of R216 in the trace, the state of R217 set. -/
def State.panelConfigured (s : State) (w h : BitVec 16) : State :=
  { s with eReady := false, trace := s.trace ++ busSetupRecords, panel := initialPanel s.par w h }

theorem initPanel_eq {w h : BitVec 16} (hw : w ≠ 0) (hh : h ≠ 0) (s : State) :
    initPanel w h s =
      (applyConfig .partialMode (s.panelConfigured w h)).bind fun _ t => .ok () (t.setEReady true) := by
  have hsetup : emitAll configRecords (s.setEReady false) =
      .ok () { s with eReady := false, trace := s.trace ++ busSetupRecords } := by
    simp [emitAll, configRecords, busSetupRecords, State.emit, State.setEReady]
  simp only [initPanel, inOrder_cons, requireSize_of hw hh, bind_ok, hsetup, inOrder_nil]
  rfl

theorem initPanel_zero {w h : BitVec 16} (hzero : w = 0 ∨ h = 0) (s : State) :
    initPanel w h s = .raised .outOfRange s := by
  rw [initPanel, inOrder_cons, requireSize_zero hzero, bind_raised]

/-- On a panel that is never busy and a bus that does not fail. -/
theorem initPanel_quiet {w h : BitVec 16} (hw : w ≠ 0) (hh : h ≠ 0) {s : State}
    (hq : s.quietFor (busSetupRecords ++ applyConfigRecords s.par w h .partialMode)) :
    initPanel w h s =
      .ok () { s.ran (busSetupRecords ++ applyConfigRecords s.par w h .partialMode) with
        eReady := true, panel := initialPanel s.par w h } := by
  obtain ⟨-, hconfig⟩ := (quietFor_append s _ _).mp hq
  rw [initPanel_eq hw hh, emits_applyConfig .partialMode (s.panelConfigured w h) _ (.refl _) hconfig, bind_ok, ran_append]
  rfl

theorem errorCode_ne_one {e : Error} (h : e.isMild = true) : errorCode e ≠ 1 := by
  cases e with
  | transportError u => exact absurd h Bool.false_ne_true
  | protocolMismatch => exact absurd h Bool.false_ne_true
  | outOfRange | capacityExceeded | illegalOp | notReady => decide

/-- Of the errors of an ERS operation, `TransportError` alone ends with `ST` = 1 (R290, R299). -/
theorem PanelEnds.not_ready_of_st_one {i : Instr} {s t : State} {x : Res Results} (hx : PanelEnds i s x)
    (h : x.complete = .next t) : t.st = 1 → t.eReady = false := by
  refine next_of_ends (R := fun t => t.st = 1 → t.eReady = false) hx (fun s' res _ => ?_) (fun e s' he => ?_) h
  · exact fun hst => absurd hst (by decide : (0 : BitVec 8) ≠ 1)
  · cases he with
    | mild hmild => exact fun hst => absurd hst (errorCode_ne_one hmild)
    | transport => exact fun _ => rfl

/-- Settles O37: the quiet run, the size check, and the error of a failed call. -/
theorem panelInitialisation : Obligations.PanelInitialisation := by
  unfold Obligations.PanelInitialisation
  rintro s w h es rfl
  refine ⟨fun hw hh hq => silent_next (initPanel_quiet hw hh hq),
    fun hzero => silent_raised_next (initPanel_zero hzero s), fun t hnext => ?_⟩
  exact (panelEnds_silent (panelEnds_init w h s)).not_ready_of_st_one hnext

end Sys2Proof.Machine
end

section
/-! Bitmaps on the display: the overlap as a set of pixels, and the bytes of its rows (42_eink_sequencer.md R226, R227;
20_memory.md R44). -/

namespace Sys2Proof.Machine

/-! The overlap (R226). -/

theorem mem_overlapOf_iff (p : PanelUnit) (px py : Int) (bw bh : BitVec 16) (x y : Int) :
    ((overlapOf p px py bw bh).cx0 ≤ x ∧ x ≤ (overlapOf p px py bw bh).cx1 ∧ (overlapOf p px py bw bh).cy0 ≤ y ∧
        y ≤ (overlapOf p px py bw bh).cy1) ↔
      (0 ≤ x ∧ x < p.width.toNat ∧ 0 ≤ y ∧ y < p.height.toNat ∧ px ≤ x ∧ x < px + bw.toNat ∧ py ≤ y ∧
        y < py + bh.toNat) := by
  simp only [overlapOf]
  omega

/-- An overlap that is not empty holds its own first pixel. -/
theorem overlapEmpty_iff (o : Overlap) :
    overlapEmpty o = true ↔ ∀ x y : Int, ¬ (o.cx0 ≤ x ∧ x ≤ o.cx1 ∧ o.cy0 ≤ y ∧ y ≤ o.cy1) := by
  simp only [overlapEmpty, Bool.or_eq_true, decide_eq_true_eq]
  constructor
  · intro h x y
    omega
  · intro h
    have hfirst := h o.cx0 o.cy0
    omega

/-- Cropped on no side. -/
theorem overlapFits_iff {p : PanelUnit} {px py : Int} {bw bh : BitVec 16} (hbw : bw ≠ 0) (hbh : bh ≠ 0) :
    overlapFits (overlapOf p px py bw bh) px py bw bh = true ↔
      0 ≤ px ∧ 0 ≤ py ∧ px + bw.toNat ≤ p.width.toNat ∧ py + bh.toNat ≤ p.height.toNat := by
  have hw : bw.toNat ≠ 0 := fun h => hbw (BitVec.eq_of_toNat_eq h)
  have hh : bh.toNat ≠ 0 := fun h => hbh (BitVec.eq_of_toNat_eq h)
  simp only [overlapFits, Bool.and_eq_true, decide_eq_true_iff]
  simp only [overlapWidth, overlapHeight, overlapOf]
  omega

/-- Settles O42: the overlap's bounds, its emptiness and its fit by the pixels they hold. -/
theorem overlapIsTheCommonPixels : Obligations.OverlapIsTheCommonPixels := by
  unfold Obligations.OverlapIsTheCommonPixels
  rintro p px py bw bh o rfl
  exact ⟨mem_overlapOf_iff p px py bw bh, overlapEmpty_iff _, overlapFits_iff⟩

/-! Eight pixels as a byte (R44). -/

/-- Of the first `n` pixels, each stands at its own bit and the bits of the others are clear. -/
theorem getLsbD_packed (px : Nat → Bool) {n j : Nat} (hn : n ≤ 8) (hj : j < 8) :
    ((List.range n).foldl (fun b i => b ||| (BitVec.ofBool (px i)).setWidth 8 <<< (7 - i)) (0 : Byte)).getLsbD (7 - j) =
      (decide (j < n) && px j) := by
  induction n with
  | zero => simp
  | succ n ih =>
    rw [List.range_succ, List.foldl_append, List.foldl_cons, List.foldl_nil, BitVec.getLsbD_or, ih (by omega),
      BitVec.getLsbD_shiftLeft, BitVec.getLsbD_setWidth, BitVec.getLsbD_ofBool]
    rcases Nat.lt_trichotomy j n with hlow | rfl | hhigh
    · have hbit : 7 - j - (7 - n) ≠ 0 := by omega
      simp [hlow, hbit, Nat.lt_succ_of_lt hlow]
    · have hbit : 7 - j < 8 := by omega
      simp [hbit]
    · have hbit : 7 - j < 7 - n := by omega
      have hout : ¬ j < n + 1 := by omega
      simp [hbit, hout, Nat.lt_asymm hhigh]

theorem getLsbD_packByte (px : Nat → Bool) {j : Nat} (hj : j < 8) : (packByte px).getLsbD (7 - j) = px j := by
  rw [packByte, getLsbD_packed px (Nat.le_refl 8) hj, decide_eq_true hj, Bool.true_and]

/-! The bytes of a row (R227). -/

section
variable {pad : Bool} {o : Overlap} {px py : Int} {bw bh : BitVec 16} {din : List Byte} {row : Nat}

theorem rowBytes_of_fits (hfits : overlapFits o px py bw bh = true) :
    rowBytes pad o px py bw bh din row = (din.drop (row * rowStride bw.toNat)).take (rowStride bw.toNat) := if_pos hfits

theorem rowBytes_of_cropped (hfits : overlapFits o px py bw bh = false) :
    rowBytes pad o px py bw bh din row =
      (List.range (rowStride (overlapWidth o))).map (croppedByte pad o px py bw din row) :=
  if_neg (by rw [hfits]; exact Bool.false_ne_true)

theorem overlapHeight_of_fits (hfits : overlapFits o px py bw bh = true) : overlapHeight o = bh.toNat := by
  simp only [overlapFits, Bool.and_eq_true, decide_eq_true_eq] at hfits
  exact hfits.2

/-- The bytes of a row inside a well-formed bitmap are all there (R225). -/
theorem row_end_le {stride height row : Nat} (h : row < height) : row * stride + stride ≤ stride * height := by
  rw [← Nat.succ_mul, Nat.mul_comm stride]
  exact Nat.mul_le_mul_right stride h

/-- Bit `7 - j` of byte `k` of a cropped row, by the pixel `(x, y)` it stands for. -/
theorem getLsbD_croppedByte {k j x y : Nat} (hj : j < 8) (hpx : px ≤ o.cx0) (hpy : py ≤ o.cy0)
    (hx : (x : Int) = o.cx0 - px + (8 * k + j : Nat)) (hy : (y : Int) = o.cy0 - py + row) :
    (croppedByte pad o px py bw din row k).getLsbD (7 - j) =
      if 8 * k + j < overlapWidth o then bitmapPixel bw.toNat din x y else pad := by
  have hcolumn : (o.cx0 - px).toNat + 8 * k + j = x := by omega
  have hline : (o.cy0 - py).toNat + row = y := by omega
  rw [croppedByte, getLsbD_packByte _ hj, hcolumn, hline]

end

/-- Settles O43, by whether the bitmap fits. -/
theorem rowBytesOfABitmap : Obligations.RowBytesOfABitmap := by
  unfold Obligations.RowBytesOfABitmap
  rintro p pad px py bw bh din o row rfl hempty hlen hrow
  refine ⟨fun hfits => ?_, fun hfits => ?_⟩
  · rw [overlapHeight_of_fits hfits] at hrow
    have hend := row_end_le (stride := (bw.toNat + 7) / 8) hrow
    rw [rowBytes_of_fits hfits, rowStride]
    refine ⟨?_, fun k hk => ?_⟩
    · rw [List.length_take, List.length_drop, hlen]
      omega
    · rw [List.getElem?_take_of_lt hk, List.getElem?_drop]
  · rw [rowBytes_of_cropped hfits, rowStride]
    refine ⟨by rw [List.length_map, List.length_range], fun k hk j hj x y hx hy => ?_⟩
    rw [List.getD_eq_getElem?_getD, List.getElem?_map, List.getElem?_range hk, Option.map_some, Option.getD_some]
    exact getLsbD_croppedByte hj (le_max_left _ _) (le_max_left _ _) hx hy

end Sys2Proof.Machine
end

section
/-! What the panel is sent whatever its busy line answers (42_eink_sequencer.md R211, R212; 92_eei_decisions.md D24):
each procedure goes on and differs from the quiet run in records of `E_BUSY` alone. -/

namespace Sys2Proof.Machine

/-! Records of `E_BUSY` carry no byte. -/

/-- The calls that read a line, wait on it or drain it: the panel's are on `E_BUSY`. -/
def isLineRead : Record → Bool
  | .lineGet _ _ | .lineWait _ _ _ | .lineDrain _ => true
  | _ => false

/-- The records but for the reads of the line. -/
def withoutReads (es : List Record) : List Record := es.filter fun e => !isLineRead e

theorem withoutReads_append (a b : List Record) : withoutReads (a ++ b) = withoutReads a ++ withoutReads b :=
  List.filter_append a b

/-- The panel sees nothing of a read of the line. -/
theorem taggedBytes_withoutReads (dc : Bool) (es : List Record) :
    taggedBytes dc (withoutReads es) = taggedBytes dc es := by
  fun_induction taggedBytes dc es with
  | case1 dc => rfl
  | case2 _ level es ih => exact ih
  | case3 dc bytes _ es ih => exact congrArg (bytes.map (fun x => (dc, x)) ++ ·) ih
  | case4 dc e es hset hwrite ih =>
    rw [← ih, withoutReads, List.filter_cons]
    split
    · exact taggedBytes.eq_4 dc e _ hset hwrite
    · rfl

/-- Records that differ in reads of the line alone. -/
theorem taggedBytes_of_withoutReads_eq {a b : List Record} (h : withoutReads a = withoutReads b) (dc : Bool) :
    taggedBytes dc a = taggedBytes dc b := by
  rw [← taggedBytes_withoutReads dc a, h, taggedBytes_withoutReads]

/-! An environment that answers, and what is left of its answers. -/

/-- For these records: the writes succeed, the line has a level to read, every wait is answered. -/
structure State.AnsweredFor (s : State) (es : List Record) : Prop where
  writes : s.answers.spiWrite.take (spiCalls es) = List.replicate (spiCalls es) true
  levels : busyCalls es ≤ s.answers.busyLevel.length
  waits : busyCalls es ≤ s.answers.busyWait.length
  answered : ∀ a ∈ s.answers.busyWait.take (busyCalls es), a ≠ .never

/-- From `s` to `t` the panel was sent the bytes of `es`, at most one wait to each reading of the line. -/
structure Sent (s : State) (es : List Record) (t : State) : Prop where
  trace : ∃ new, t.trace = s.trace ++ new ∧ withoutReads new = withoutReads es
  writes : t.answers.spiWrite = s.answers.spiWrite.drop (spiCalls es)
  levels : t.answers.busyLevel = s.answers.busyLevel.drop (busyCalls es)
  waits : ∃ k ≤ busyCalls es, t.answers.busyWait = s.answers.busyWait.drop k

theorem State.AnsweredFor.left {s : State} {a b : List Record} (h : s.AnsweredFor (a ++ b)) : s.AnsweredFor a := by
  obtain ⟨hwrites, hlevels, hwaits, hanswered⟩ := h
  rw [spiCalls_append, take_replicate_append] at hwrites
  rw [busyCalls_append] at hlevels hwaits hanswered
  exact ⟨hwrites.1, by omega, by omega,
    fun x hx => hanswered x ((List.take_sublist_take_left (Nat.le_add_right _ _)).subset hx)⟩

theorem State.AnsweredFor.right {s t : State} {a b : List Record} (h : s.AnsweredFor (a ++ b)) (hsent : Sent s a t) :
    t.AnsweredFor b := by
  obtain ⟨hwrites, hlevels, hwaits, hanswered⟩ := h
  obtain ⟨-, hw, hl, k, hk, hb⟩ := hsent
  rw [spiCalls_append, take_replicate_append] at hwrites
  rw [busyCalls_append] at hlevels hwaits hanswered
  refine ⟨hw ▸ hwrites.2, ?_, ?_, fun x hx => hanswered x ?_⟩
  · rw [hl, List.length_drop]
    omega
  · rw [hb, List.length_drop]
    omega
  · rw [hb, List.take_drop] at hx
    exact (List.take_sublist_take_left (by omega)).subset (List.mem_of_mem_drop hx)

theorem Sent.trans {s t u : State} {a b : List Record} (h1 : Sent s a t) (h2 : Sent t b u) : Sent s (a ++ b) u := by
  obtain ⟨⟨new1, ht1, hn1⟩, hw1, hl1, k1, hk1, hb1⟩ := h1
  obtain ⟨⟨new2, ht2, hn2⟩, hw2, hl2, k2, hk2, hb2⟩ := h2
  refine ⟨⟨new1 ++ new2, ?_, ?_⟩, ?_, ?_, k1 + k2, ?_, ?_⟩
  · rw [ht2, ht1, List.append_assoc]
  · rw [withoutReads_append, withoutReads_append, hn1, hn2]
  · rw [hw2, hw1, List.drop_drop, spiCalls_append]
  · rw [hl2, hl1, List.drop_drop, busyCalls_append]
  · rw [busyCalls_append]
    exact Nat.add_le_add hk1 hk2
  · rw [hb2, hb1, List.drop_drop]

/-! Pieces. -/

/-- The piece goes on where it is answered, and sends the bytes of `es`. -/
def Sends (s : State) (es : List Record) (x : Res Unit) : Prop :=
  s.AnsweredFor es → ∃ t, x = .ok () t ∧ Sent s es t

theorem sends_nothing {s t : State} (htrace : t.trace = s.trace) (hanswers : t.answers = s.answers) :
    Sends s [] (.ok () t) :=
  fun _ => ⟨t, rfl, ⟨[], by rw [htrace, List.append_nil], rfl⟩, by rw [hanswers]; rfl, by rw [hanswers]; rfl,
    0, Nat.zero_le _, by rw [hanswers]; rfl⟩

theorem Sends.bind {s : State} {a b : List Record} {x : Res Unit} {k : Unit → State → Res Unit} (hx : Sends s a x)
    (hk : ∀ t, x = .ok () t → Sends t b (k () t)) : Sends s (a ++ b) (x.bind k) := by
  intro h
  obtain ⟨t, rfl, ht⟩ := hx h.left
  obtain ⟨u, hu, hsent⟩ := hk t rfl (h.right ht)
  exact ⟨u, hu, ht.trans hsent⟩

/-- Where the first piece goes on, it has moved the refresh state to `p` and only called the panel otherwise. -/
theorem Sends.bind_panelTo {s : State} {p : PanelUnit} {a b : List Record} {x : Res Unit}
    {k : Unit → State → Res Unit} (hx : Sends s a x) (hp : PanelTo s p x)
    (hk : ∀ t, CallsOnly { s with panel := p } t → Sends t b (k () t)) : Sends s (a ++ b) (x.bind k) := by
  refine hx.bind fun t ht => hk t ?_
  subst ht
  exact hp

/-- Block state written last. -/
theorem Sends.bind_set {s : State} {a : List Record} {x : Res Unit} (hx : Sends s a x) {f : State → State}
    (htrace : ∀ t, (f t).trace = t.trace) (hanswers : ∀ t, (f t).answers = t.answers) :
    Sends s a (x.bind fun _ t => .ok () (f t)) := by
  rw [← List.append_nil a]
  exact hx.bind fun t _ => sends_nothing (htrace t) (hanswers t)

theorem Sends.append {l1 l2 : List (State → Res Unit)} {s : State} {a b : List Record}
    (h1 : Sends s a (inOrder l1 s)) (hl : PanelPiece (inOrder l1))
    (h2 : ∀ t, CallsOnly s t → Sends t b (inOrder l2 t)) : Sends s (a ++ b) (inOrder (l1 ++ l2) s) := by
  rw [inOrder_append]
  exact h1.bind_panelTo (hl.panelTo s) h2

/-- A piece that does not read the line behaves as in the quiet run. -/
theorem Emits.sends {q : State → Res Unit} {s0 s : State} {es : List Record} (h : Emits q s0 es) (hs : CallsOnly s0 s)
    (hb : busyCalls es = 0) : Sends s es (q s) :=
  fun ha => ⟨s.ran es, h s hs ⟨ha.writes, by simp [hb]⟩, ⟨es, rfl, rfl⟩, rfl, rfl, 0, Nat.zero_le _, rfl⟩

/-- `wait_for_busy` reads the line once, whatever it answers (R212). -/
theorem sends_waitForBusy (s : State) : Sends s idleRecords (waitForBusy s) := by
  intro h
  obtain ⟨level, levels, hlevel⟩ := List.exists_cons_of_length_pos (Nat.lt_of_lt_of_le Nat.zero_lt_one h.levels)
  obtain ⟨ans, waits, hwait⟩ := List.exists_cons_of_length_pos (Nat.lt_of_lt_of_le Nat.zero_lt_one h.waits)
  cases level with
  | false =>
    exact ⟨_, waitForBusy_idle hlevel, ⟨_, rfl, rfl⟩, rfl, congrArg (List.drop 1) hlevel.symm, 0, Nat.zero_le _,
      rfl⟩
  | true =>
    have hans : ans ≠ .never := h.answered ans (by rw [hwait]; exact List.mem_cons_self)
    exact ⟨_, waitForBusy_answered hlevel hwait (waitResult_eq (.inl hans)), ⟨_, rfl, rfl⟩, rfl,
      congrArg (List.drop 1) hlevel.symm, 1, Nat.le_refl _, congrArg (List.drop 1) hwait.symm⟩

/-- Pieces that do not read the line, then the wait. -/
theorem Emits.sends_wait {l : List (State → Res Unit)} {s0 s : State} {es : List Record} (h : Emits (inOrder l) s0 es)
    (hs : CallsOnly s0 s) (hb : busyCalls es = 0) (hl : PanelPiece (inOrder l)) :
    Sends s (es ++ idleRecords) (inOrder (l ++ [waitForBusy]) s) :=
  (h.sends hs hb).append hl fun t _ => by
    rw [inOrder_singleton]
    exact sends_waitForBusy t

/-! Procedures that do not read the line: no record of theirs is a reading. -/

@[simp] theorem busyCalls_cmdRecords (op : Byte) (payload : List Byte) : busyCalls (cmdRecords op payload) = 0 := by
  unfold cmdRecords
  split <;> rfl

theorem busyCalls_resetRecords (l : List ResetAction) : busyCalls (l.map resetRecord) = 0 := by
  refine List.countP_eq_zero.mpr fun e he => ?_
  obtain ⟨a, -, rfl⟩ := List.mem_map.mp he
  cases a <;> simp [resetRecord]

@[simp] theorem busyCalls_drawRegionRecords (x0 y0 x1 y1 : Nat) : busyCalls (drawRegionRecords x0 y0 x1 y1) = 0 := by
  simp [drawRegionRecords, busyCalls_append]

@[simp] theorem busyCalls_drawOffsetRecords (ox oy : Nat) : busyCalls (drawOffsetRecords ox oy) = 0 := by
  simp [drawOffsetRecords, busyCalls_append]

theorem busyCalls_waveformRecords (m : RefreshMode) : busyCalls (waveformRecords m) = 0 := by
  cases m <;> simp [waveformRecords, busyCalls_append]

theorem busyCalls_uploadFullRecords (w h : BitVec 16) (data : List Byte) :
    busyCalls (uploadFullRecords w h data) = 0 := by
  simp [uploadFullRecords, busyCalls_append]

theorem busyCalls_uploadRowRecords (par : Params) (p : PanelUnit) (px py : Int) (bw bh : BitVec 16) (din : List Byte)
    (r : Nat) : busyCalls (uploadRowRecords par p px py bw bh din r) = 0 := by
  simp only [uploadRowRecords, busyCalls_append, busyCalls_drawOffsetRecords, busyCalls_cmdRecords]
  rfl

theorem busyCalls_uploadBitmapRecords (par : Params) (p : PanelUnit) (px py : Int) (bw bh : BitVec 16)
    (din : List Byte) : busyCalls (uploadBitmapRecords par p px py bw bh din) = 0 := by
  have hrows (rows : List Nat) : busyCalls (rows.flatMap (uploadRowRecords par p px py bw bh din)) = 0 := by
    induction rows with
    | nil => rfl
    | cons r rows ih => rw [List.flatMap_cons, busyCalls_append, busyCalls_uploadRowRecords, ih]
  unfold uploadBitmapRecords
  dsimp only
  split
  · rfl
  · rw [busyCalls_append, busyCalls_drawRegionRecords, hrows]

theorem sends_uploadFull (data : List Byte) (s : State) :
    Sends s (uploadFullRecords s.panel.width s.panel.height data) (uploadFull data s) :=
  (emits_uploadFull data s).sends (.refl s) (busyCalls_uploadFullRecords _ _ _)

theorem sends_uploadBitmap (px py : Int) (bw bh : BitVec 16) (din : List Byte) (s : State) :
    Sends s (uploadBitmapRecords s.par s.panel px py bw bh din) (uploadBitmap px py bw bh din s) :=
  (emits_uploadBitmap px py bw bh din s).sends (.refl s) (busyCalls_uploadBitmapRecords _ _ _ _ _ _ _)

/-! Procedures that wait for the panel (R214, R215). -/

theorem emits_waveformCommands (s0 : State) : ∀ m, Emits (inOrder (waveformCommands m)) s0 (waveformRecords m)
  | .partialMode => (emits_sendCmd 0x3c [0x80] s0).one
  | .fullMode => by
    rw [waveformRecords, List.append_assoc]
    exact (emits_sendCmd 0x3c [0x05] s0).cons
      ((emits_sendCmd 0x21 [0x00, 0x80] s0).cons (emits_sendCmd 0x18 [0x80] s0).one)

theorem panelPiece_waveformCommands : ∀ m, ∀ q ∈ waveformCommands m, PanelPiece q
  | .partialMode => by simp [waveformCommands, panelPiece_sendCmd]
  | .fullMode => by simp [waveformCommands, panelPiece_sendCmd]

/-- `apply_config(mode)`: a reset, a wait, the configuration, a wait (R214). -/
theorem sends_applyConfig (m : RefreshMode) (s : State) :
    Sends s (applyConfigRecords s.par s.panel.width s.panel.height m) (applyConfig m s) := by
  have hreset := ((emits_hwReset s).cons (emits_sendCmd 0x12 [] s).one).sends_wait (.refl s)
    (by rw [busyCalls_append, busyCalls_resetRecords, busyCalls_cmdRecords])
    (PanelPiece.inOrder (by simp [panelPiece_hwReset, panelPiece_sendCmd]))
  have hconfig := fun t ht =>
    (((emits_sendDataInputMode s).cons (emits_sendDriverOutputControl s).one).append
      (emits_waveformCommands s m)).sends_wait (s := t) ht
      (by simp only [busyCalls_append, busyCalls_cmdRecords, busyCalls_waveformRecords])
      (PanelPiece.inOrder (List.forall_mem_append.mpr ⟨by
        simp [panelPiece_sendDataInputMode, panelPiece_sendDriverOutputControl], panelPiece_waveformCommands m⟩))
  have h := hreset.append (PanelPiece.inOrder (by
    simp [panelPiece_hwReset, panelPiece_sendCmd, panelPiece_waitForBusy])) hconfig
  simpa only [applyConfig, applyConfigRecords, List.append_assoc, List.cons_append, List.nil_append] using h

/-- `refresh_display(mode)`: a command, a start, a wait (R215). -/
theorem sends_refreshDisplay (m : RefreshMode) (s : State) : Sends s (refreshRecords m) (refreshDisplay m s) := by
  have harg : [updateArgument m] = updateModePayload m := by cases m <;> rfl
  rw [refreshRecords, harg]
  exact ((emits_sendCmd 0x22 (updateModePayload m) s).cons (emits_sendCmd 0x20 [] s).one).sends_wait (.refl s)
    (by rw [busyCalls_append, busyCalls_cmdRecords, busyCalls_cmdRecords])
    (PanelPiece.inOrder (by simp [panelPiece_sendCmd]))

end Sys2Proof.Machine
end

section
/-! The scheduler and the operations of ERS, whatever the busy line answers (43_eink_scheduler.md R250 to R262): the
bytes of the table of R262. -/

namespace Sys2Proof.Machine

/-- Block state written first. -/
theorem Sends.after_set {s s' : State} {es : List Record} {x : Res Unit} (h : Sends s' es x)
    (htrace : s'.trace = s.trace) (hanswers : s'.answers = s.answers) : Sends s es x :=
  (sends_nothing htrace hanswers).bind (k := fun _ _ => x) fun t ht => by
    cases ht
    exact h

/-! The two halves of an upload, by the refresh state they start from. -/

/-- What `post_upload` sends (R253). -/
def postRecords (par : Params) (p : PanelUnit) : List Record :=
  if p.refreshMode = .fullMode then refreshRecords .fullMode
  else if p.autoRefreshing = true ∧ p.autoRefreshMode = .fullRefresh then
    refreshRecords .fullMode ++ applyConfigRecords par p.width p.height .partialMode
  else refreshRecords .partialMode

/-- What `pre_upload` sends, the white upload of a ClearToWhite cycle included (R252). -/
def preRecords (par : Params) (p : PanelUnit) : List Record :=
  if startsCycle p = false ∨ p.autoRefreshing = true then []
  else if p.autoRefreshMode = .fullRefresh then applyConfigRecords par p.width p.height .fullMode
  else uploadFullRecords p.width p.height (uniformFrame false p) ++ postRecords par { p with autoRefreshing := true }

theorem partialMode_of_ne_full {m : RefreshMode} (h : m ≠ .fullMode) : m = .partialMode := by
  cases m with
  | partialMode => rfl
  | fullMode => exact absurd rfl h

theorem sends_postUpload (s : State) : Sends s (postRecords s.par s.panel) (postUpload s) := by
  unfold postRecords
  by_cases hfull : s.panel.refreshMode = .fullMode
  · rw [if_pos hfull, postUpload_full s hfull]
    exact sends_refreshDisplay _ s
  have hpart := partialMode_of_ne_full hfull
  rw [if_neg hfull]
  by_cases hend : s.panel.autoRefreshing = true ∧ s.panel.autoRefreshMode = .fullRefresh
  · rw [if_pos hend, postUpload_endFullRefresh s hpart hend.2 hend.1]
    refine (sends_refreshDisplay _ s).bind_panelTo ((panelPiece_refreshDisplay _).panelTo s) fun t ht => ?_
    have hconfig := (sends_applyConfig .partialMode ((t.setPartialCount 0).setAutoRefreshing false)).after_set
      (s := t) rfl rfl
    obtain ⟨_, _, _, rfl⟩ := ht
    exact hconfig
  rw [if_neg hend]
  cases hpolicy : s.panel.autoRefreshMode with
  | noPolicy =>
    rw [postUpload_noPolicy s hpart hpolicy]
    exact sends_refreshDisplay _ s
  | fullRefresh =>
    rw [postUpload_count s hpart (by simp [hpolicy]) (by simpa [hpolicy] using hend)]
    exact (sends_refreshDisplay _ s).bind_set (f := fun t => t.setPartialCount (t.panel.partialRefreshCount + 1))
      (fun _ => rfl) fun _ => rfl
  | clearToWhite =>
    cases hr : s.panel.autoRefreshing with
    | false =>
      rw [postUpload_count s hpart (by simp [hpolicy]) hr]
      exact (sends_refreshDisplay _ s).bind_set (f := fun t => t.setPartialCount (t.panel.partialRefreshCount + 1))
        (fun _ => rfl) fun _ => rfl
    | true =>
      rw [postUpload_endClearToWhite s hpart hpolicy hr]
      exact (sends_refreshDisplay _ s).bind_set (f := fun t => (t.setPartialCount 0).setAutoRefreshing false)
        (fun _ => rfl) fun _ => rfl

/-- The white upload of a ClearToWhite cycle (R252). -/
theorem sends_nestedClear (s : State) (h : s.panel.autoRefreshing = true) :
    Sends s (uploadFullRecords s.panel.width s.panel.height (uniformFrame false s.panel) ++ postRecords s.par s.panel)
      (nestedClear s) := by
  simp only [nestedClear, uploadWith, inOrder_cons, preUploadWith_refreshing _ s h, bind_ok]
  refine (sends_uploadFull _ s).bind_panelTo ((panelPiece_uploadFull _).panelTo s) fun t ht => ?_
  obtain ⟨_, _, _, rfl⟩ := ht
  rw [← inOrder_cons, inOrder_singleton]
  exact sends_postUpload _

theorem sends_preUpload (s : State) : Sends s (preRecords s.par s.panel) (preUpload s) := by
  unfold preRecords
  by_cases hidle : startsCycle s.panel = false ∨ s.panel.autoRefreshing = true
  · rw [if_pos hidle, preUpload_idle s hidle]
    exact sends_nothing rfl rfl
  rw [if_neg hidle]
  obtain ⟨hstarts, hr⟩ := not_or.mp hidle
  rw [Bool.not_eq_false] at hstarts
  rw [Bool.not_eq_true] at hr
  cases hpolicy : s.panel.autoRefreshMode with
  | noPolicy => simp [startsCycle, hpolicy] at hstarts
  | fullRefresh =>
    rw [if_pos rfl, preUpload_fullRefresh s hstarts hr hpolicy]
    exact (sends_applyConfig .fullMode (s.setAutoRefreshing true)).after_set rfl rfl
  | clearToWhite =>
    rw [if_neg (by decide), preUpload_clearToWhite s hstarts hr hpolicy, ← hpolicy]
    exact (sends_nestedClear (s.setAutoRefreshing true) rfl).after_set rfl rfl

/-- The table of R262 as its two halves, where no cycle is open before the upload. -/
theorem uploadPlan_eq (par : Params) (p : PanelUnit) (body : List Record) (h : p.autoRefreshing = false) :
    uploadPlan par p body = preRecords par p ++ (body ++ postRecords par (afterPre p)) := by
  obtain ⟨mode, policy, count, budget, refreshing, w, hgt⟩ := p
  cases h
  cases mode with
  | fullMode => simp [uploadPlan, preRecords, postRecords, afterPre, startsCycle]
  | partialMode =>
    by_cases hb : budget.toNat ≤ count.toNat <;>
      cases policy <;> simp [uploadPlan, preRecords, postRecords, afterPre, afterPost, startsCycle, hb, uniformFrame]

/-- One upload operation (R250), its body's records given by the size in force, which no half moves. -/
theorem sends_upload {body : State → Res Unit} {records : PanelUnit → List Record} (hpiece : PanelPiece body)
    (s : State) (hr : s.panel.autoRefreshing = false)
    (hbody : ∀ t n b, CallsOnly { s with panel := { s.panel with partialRefreshCount := n, autoRefreshing := b } } t →
      Sends t (records s.panel) (body t)) :
    Sends s (uploadPlan s.par s.panel (records s.panel)) (uploadWith preUpload body s) := by
  rw [uploadPlan_eq _ _ _ hr]
  simp only [uploadWith, inOrder_cons]
  refine (sends_preUpload s).bind_panelTo (preUpload_panelTo s) fun t ht => ?_
  obtain ⟨n, b, hpre⟩ := afterPre_eq_update s.panel
  refine (hbody t n b (hpre ▸ ht)).bind_panelTo (hpiece.panelTo t) fun u hu => ?_
  obtain ⟨_, _, _, rfl⟩ := ht
  obtain ⟨_, _, _, rfl⟩ := hu
  rw [← inOrder_cons, inOrder_singleton]
  exact sends_postUpload _

/-! The operations. -/

theorem Sends.ready {q : State → Res Unit} {s : State} {es : List Record} (h : Sends s es (q s))
    (hready : s.eReady = true) : Sends s es (inOrder [requirePanelReady, q] s) := by
  rwa [inOrder_ready hready, inOrder_singleton]

theorem sends_rawFb (data : List Byte) (s : State) (hr : s.panel.autoRefreshing = false) :
    Sends s (uploadPlan s.par s.panel (uploadFullRecords s.panel.width s.panel.height data)) (rawFb data s) := by
  refine sends_upload (records := fun p => uploadFullRecords p.width p.height data) (panelPiece_uploadFull data) s hr
    fun t n b ht => ?_
  have h := sends_uploadFull data t
  obtain ⟨_, _, _, rfl⟩ := ht
  exact h

theorem sends_clearPanel (toBlack : Bool) (s : State) (hr : s.panel.autoRefreshing = false) :
    Sends s (uploadPlan s.par s.panel (uploadFullRecords s.panel.width s.panel.height (uniformFrame toBlack s.panel)))
      (clearPanel toBlack s) := sends_rawFb _ s hr

theorem sends_putBitmap {px py : Int} {bw bh : BitVec 16} {din : List Byte} {s : State} (hready : s.eReady = true)
    (hr : s.panel.autoRefreshing = false) (hbitmap : bitmapOk bw bh din = true)
    (hoffsets : regionOffsetsOk s.par s.panel (overlapOf s.panel px py bw bh) = true) :
    Sends s (uploadPlan s.par s.panel (uploadBitmapRecords s.par s.panel px py bw bh din))
      (inOrder [requirePanelReady, requireBitmap bw bh din, requireOffsets px py bw bh,
        uploadWith preUpload (uploadBitmap px py bw bh din)] s) := by
  rw [inOrder_ready hready, inOrder_bitmapAccepted hbitmap hoffsets, inOrder_singleton]
  refine sends_upload (records := fun p => uploadBitmapRecords s.par p px py bw bh din)
    (panelPiece_uploadBitmap px py bw bh din) s hr fun t n b ht => ?_
  have h := sends_uploadBitmap px py bw bh din t
  obtain ⟨_, _, _, rfl⟩ := ht
  exact h

theorem sends_initPanel {w h : BitVec 16} (hw : w ≠ 0) (hh : h ≠ 0) (s : State) :
    Sends s (busSetupRecords ++ applyConfigRecords s.par w h .partialMode) (initPanel w h s) := by
  have hsetup : Sends s busSetupRecords (.ok () (s.panelConfigured w h)) :=
    fun _ => ⟨_, rfl, ⟨busSetupRecords, rfl, rfl⟩, rfl, rfl, 0, Nat.zero_le _, rfl⟩
  rw [initPanel_eq hw hh]
  refine hsetup.bind (k := fun _ s1 => (applyConfig .partialMode s1).bind fun _ t => .ok () (t.setEReady true))
    fun t ht => ?_
  cases ht
  exact (sends_applyConfig .partialMode (s.panelConfigured w h)).bind_set (f := fun t => t.setEReady true)
    (fun _ => rfl) fun _ => rfl

theorem sends_setMode (m : RefreshMode) {s : State} (hready : s.eReady = true) :
    Sends s (applyConfigRecords s.par s.panel.width s.panel.height m) (setMode m s) := by
  rw [setMode_ready m s hready]
  cases m with
  | partialMode => exact (sends_applyConfig .partialMode (s.setRefreshMode .partialMode)).after_set rfl rfl
  | fullMode =>
    exact (sends_applyConfig .fullMode ((s.setRefreshMode .fullMode).setPartialCount 0)).after_set rfl rfl

theorem sends_setAuto (p : RefreshPolicy) {s : State} (hready : s.eReady = true) : Sends s [] (setAuto p s) := by
  rw [setAuto_ready p s hready]
  exact sends_nothing rfl rfl

/-! From a piece to the next state. -/

/-- The operation ends with `ST` = 0, the panel sent the bytes of `es`. -/
def Delivers (s : State) (es : List Record) (o : Host.Outcome State Fault Refusal) : Prop :=
  ∃ t new, o = .next t ∧ t.st = 0 ∧ t.trace = s.trace ++ new ∧ ∀ dc, taggedBytes dc new = taggedBytes dc es

theorem Sends.delivers {s : State} {es : List Record} {x : Res Unit} (hx : Sends s es x) (hs : s.AnsweredFor es) :
    Delivers s es x.silent.complete := by
  obtain ⟨t, rfl, ⟨new, htrace, hnew⟩, -⟩ := hx hs
  exact ⟨_, new, rfl, rfl, htrace, taggedBytes_of_withoutReads_eq hnew⟩

/-- Settles O52: each host operation of ERS by the bytes its pieces send, reads of the busy line left out. -/
theorem busyAnswersChangeNoByte : Obligations.BusyAnswersChangeNoByte := by
  unfold Obligations.BusyAnswersChangeNoByte
  intro i s es hchan hunit hready hr hsize hbitmap hes hwrites hlevels hwaits hanswered
  have hs : s.AnsweredFor es := ⟨hwrites, hlevels, hwaits, hanswered⟩
  subst hes
  suffices h : Delivers s (plannedRecords i s.par s.panel) (exec i s) from h
  cases i with
  | bTobe1 | bTobe2 | bTobe4 | bTobe8 | bTole1 | bTole2 | bTole4 | bTole8 | bWrapLe | bWrapBe | bRead1 | bRead2 | bRead4
  | bRead8 | bWrite1 | bWrite2 | bWrite4 | bWrite8 | bSeekBeg | bSeekCur | bSeekEnd | bTell | bDump =>
    exact absurd hunit (nofun : BlockUnit.bbc ≠ .ers)
  | tInit | tCfg | tLock | tWait | tPoll => exact absurd hunit (nofun : BlockUnit.tes ≠ .ers)
  | touchIdRead | touchConfigRead | touchStatusRead | touchStatusAck | touchFrameRead | touchLockctlWrite
  | touchLockstatusRead | touchLockstatusAck => exact absurd hchan (nofun : Channel.touch ≠ .host)
  | epdDriverOutputControl | epdDeepSleep | epdDataInputMode | epdSoftReset | epdTemperatureSource | epdBeginUpdate
  | epdDisplayUpdateControl1 | epdDisplayUpdateControl2 | epdUploadImageData | epdBorderWaveformControl | epdDrawRegionX
  | epdDrawRegionY | epdDrawOffsetX | epdDrawOffsetY => exact absurd hchan (nofun : Channel.panel ≠ .host)
  | eInit w h =>
    obtain ⟨hw, hh⟩ := hsize w h (.inl rfl)
    exact (sends_initPanel hw hh s).delivers hs
  | eSetsize w h =>
    obtain ⟨hw, hh⟩ := hsize w h (.inr rfl)
    have hset : Sends s [] (inOrder [requirePanelReady, requireSize w h, fun s1 => .ok () (s1.setSize w h)] s) := by
      rw [inOrder_ready hready, setSize_accepted hw hh]
      exact sends_nothing rfl rfl
    exact hset.delivers hs
  | eGeom =>
    refine ⟨s.present ⟨some (geometryWord s.panel), none⟩, [], ?_, rfl, (List.append_nil _).symm, fun _ => rfl⟩
    change ((requirePanelReady s).bind fun _ s1 => withR (geometryWord s1.panel) s1).complete = _
    rw [requirePanelReady_of s hready]
    rfl
  | eSetmodeP | eSetmodeF => exact (sends_setMode _ hready).delivers hs
  | eSetautoNone | eSetautoFull | eSetautoWhite => exact (sends_setAuto _ hready).delivers hs
  | eSetmax n =>
    exact (Sends.ready (q := fun s1 => .ok () (s1.setMaxPartial n)) (sends_nothing rfl rfl) hready).delivers hs
  | eClearW | eClearB => exact ((sends_clearPanel _ s hr).ready hready).delivers hs
  | eRawfb din => exact ((sends_rawFb din s hr).ready hready).delivers hs
  | ePutbmp px py bw bh din =>
    obtain ⟨hbitmap, hoffsets⟩ := hbitmap px py bw bh din rfl
    exact (sends_putBitmap hready hr hbitmap hoffsets).delivers hs
  | ePoweroff =>
    have hsleep := (emits_sendCmd 0x10 [0x01] s).sends (.refl s) (busyCalls_cmdRecords _ _)
    exact (hsleep.ready hready).delivers hs

end Sys2Proof.Machine
end

section
/-! The partial refresh counter under every instruction (43_eink_scheduler.md R256): what an upload does to the counter
is a function of the refresh state it starts from, and the bound is a fact about that function. -/

namespace Sys2Proof.Machine

/-- The counter is at most the larger of the budget and 1 (R256). -/
def CounterBounded (p : PanelUnit) : Prop := p.partialRefreshCount.toNat ≤ max p.maxPartialRefreshes.toNat 1

/-- Below the budget no cycle starts (R252). -/
theorem startsCycle_of_below {p : PanelUnit} (h : p.partialRefreshCount.toNat < p.maxPartialRefreshes.toNat) :
    startsCycle p = false := by
  rw [startsCycle, decide_eq_false (Nat.not_le.mpr h), Bool.and_false]

/-- Below the budget the increment does not wrap: the budget is itself a number of 32 bits. -/
theorem toNat_count_add_one {p : PanelUnit} (h : p.partialRefreshCount.toNat < p.maxPartialRefreshes.toNat) :
    (p.partialRefreshCount + 1).toNat = p.partialRefreshCount.toNat + 1 :=
  BitVec.toNat_add_of_lt (Nat.lt_of_le_of_lt h p.maxPartialRefreshes.isLt)

theorem counterAfter_of_below {p : PanelUnit} (hmode : p.refreshMode = .partialMode)
    (hpolicy : p.autoRefreshMode ≠ .noPolicy) (h : p.partialRefreshCount.toNat < p.maxPartialRefreshes.toNat) :
    (counterAfter p).toNat = p.partialRefreshCount.toNat + 1 := by
  rw [counterAfter, if_neg (by simp [hmode, hpolicy]), if_pos (startsCycle_of_below h), toNat_count_add_one h]

/-- The column "counter after" of R262 keeps the bound. -/
theorem counterAfter_bounded {p : PanelUnit} (h : CounterBounded p) : CounterBounded (panelAfterUpload p) := by
  show (counterAfter p).toNat ≤ max p.maxPartialRefreshes.toNat 1
  unfold counterAfter
  by_cases hkept : p.refreshMode = .fullMode ∨ p.autoRefreshMode = .noPolicy
  · rwa [if_pos hkept]
  obtain ⟨hmode, hpolicy⟩ := not_or.mp hkept
  rw [if_neg hkept]
  cases hstarts : startsCycle p with
  | false =>
    have hbelow : p.partialRefreshCount.toNat < p.maxPartialRefreshes.toNat := by
      simpa [startsCycle, partialMode_of_ne_full hmode, hpolicy] using hstarts
    rw [if_pos rfl, toNat_count_add_one hbelow]
    exact le_max_of_le_left hbelow
  | true =>
    rw [if_neg Bool.noConfusion]
    split
    · exact Nat.zero_le _
    · exact le_max_right _ _

/-- Every update of ERS but that of `E.SETMAX` keeps the bound. -/
theorem PanelDone.keeps_counterBounded {i : Instr} {s s1 : State} (hd : PanelDone i s s1)
    (hmax : ∀ n, i ≠ .eSetmax n) (hr : s.panel.autoRefreshing = false) (h : CounterBounded s.panel) :
    CounterBounded s1.panel := by
  cases hd with
  | keep | setSize | setPartialMode | setAuto => exact h
  | start | setFullMode => exact Nat.zero_le _
  | setMax n op => exact absurd op (hmax n)
  | upload =>
    simp only [afterPost_afterPre s.panel hr]
    exact counterAfter_bounded h

theorem exec_keeps_counterBounded {i : Instr} {s t : State} (hmax : ∀ n, i ≠ .eSetmax n)
    (hr : s.panel.autoRefreshing = false) (h : CounterBounded s.panel) (hnext : exec i s = .next t)
    (hready : t.eReady = true) : CounterBounded t.panel := by
  cases exec_unitNext hnext with
  | codec _ _ panel _ _ _ | touch _ _ panel _ _ =>
    obtain ⟨hpanel, -⟩ := panel
    exact hpanel ▸ h
  | panel _ _ _ _ next =>
    cases next with
    | failed unready _ => exact absurd (unready.symm.trans hready) Bool.false_ne_true
    | done s1 update same =>
      obtain ⟨hpanel, -⟩ := same
      exact hpanel ▸ update.keeps_counterBounded hmax hr h

/-! An upload that ends with `ST` = 0 has passed its checks and run to its end. -/

/-- Where it goes on, both halves of an upload have moved the refresh state. -/
def Uploads {α : Type} (s : State) (x : Res α) : Prop :=
  x.ends (fun t => t.panel = afterPost (afterPre s.panel)) fun _ _ => True

/-- A check before the upload moves nothing. -/
theorem Uploads.gate {q : State → Res Unit} {l : List (State → Res Unit)} {s : State} {φ : Prop}
    (hq : Gate s φ (q s)) (hl : Uploads s (inOrder l s)) : Uploads s (inOrder (q :: l) s) := by
  rw [inOrder_cons]
  refine ends_bind (P := fun s' => s' = s) (ends_mono hq (fun _ h => h.1) fun _ _ _ => trivial) ?_
  rintro _ s' rfl
  exact hl

theorem uploads_uploadWith {body : State → Res Unit} (hb : PanelPiece body) (s : State) :
    Uploads s (uploadWith preUpload body s) := by
  refine ends_mono (uploadWith_panelTo hb s) ?_ fun _ _ _ => trivial
  rintro _ ⟨_, _, _, rfl⟩
  rfl

theorem uploads_rawFb (data : List Byte) (s : State) : Uploads s (rawFb data s) :=
  uploads_uploadWith (panelPiece_uploadFull data) s

theorem Uploads.ready {q : State → Res Unit} {s : State} (h : Uploads s (q s)) :
    Uploads s (inOrder [requirePanelReady, q] s) := by
  refine Uploads.gate (gate_panelReady s) ?_
  rwa [inOrder_singleton]

theorem uploads_clearPanel (toBlack : Bool) (s : State) :
    Uploads s (inOrder [requirePanelReady, clearPanel toBlack] s) :=
  Uploads.ready (uploads_rawFb _ s)

theorem uploads_putBitmap (px py : Int) (bw bh : BitVec 16) (din : List Byte) (s : State) :
    Uploads s (inOrder [requirePanelReady, requireBitmap bw bh din, requireOffsets px py bw bh,
      uploadWith preUpload (uploadBitmap px py bw bh din)] s) := by
  refine Uploads.gate (gate_panelReady s) (Uploads.gate (gate_bitmap bw bh din s)
    (Uploads.gate (gate_offsets px py bw bh s) ?_))
  rw [inOrder_singleton]
  exact uploads_uploadWith (panelPiece_uploadBitmap px py bw bh din) s

theorem Uploads.next {s t : State} {x : Res Unit} (hx : Uploads s x) (h : x.silent.complete = .next t) :
    t.st = 0 → t.panel = afterPost (afterPre s.panel) :=
  next_of_ends (R := fun t => t.st = 0 → t.panel = afterPost (afterPre s.panel)) (silent_ends hx)
    (fun _ _ hs _ => hs) (fun e _ _ hst => absurd hst (errorCode_ne_zero e)) h

theorem exec_clearOf (toBlack : Bool) (s : State) :
    exec (clearOf toBlack) s = (inOrder [requirePanelReady, clearPanel toBlack] s).silent.complete := by
  cases toBlack <;> rfl

theorem exec_eRawfb (din : List Byte) (s : State) :
    exec (.eRawfb din) s = (inOrder [requirePanelReady, rawFb din] s).silent.complete := rfl

/-- An upload with `ST` = 0 moves the refresh state as R262 says. -/
theorem exec_upload_panel {i : Instr} (hi : isUpload i = true) {s t : State} (hr : s.panel.autoRefreshing = false)
    (h : exec i s = .next t) (hst : t.st = 0) : t.panel = panelAfterUpload s.panel := by
  rw [← afterPost_afterPre s.panel hr]
  cases i with
  | eClearW => exact (uploads_clearPanel false s).next (exec_clearOf false s ▸ h) hst
  | eClearB => exact (uploads_clearPanel true s).next (exec_clearOf true s ▸ h) hst
  | eRawfb din => exact (uploads_rawFb din s).ready.next (exec_eRawfb din s ▸ h) hst
  | ePutbmp px py bw bh din => exact (uploads_putBitmap _ _ bw bh din s).next (exec_ePutbmp px py bw bh din s ▸ h) hst
  | _ => exact absurd hi Bool.false_ne_true

/-- Settles O53: the bound through every update, and the increment of an upload that starts no cycle. -/
theorem counterBound : Obligations.CounterBound := by
  unfold Obligations.CounterBound
  refine ⟨fun i s t hmax _ hr h => exec_keeps_counterBounded hmax hr h,
    fun i s t hi _ hr hnext hst hmode hpolicy hbelow => ?_⟩
  rw [exec_upload_panel hi hr hnext hst]
  exact counterAfter_of_below hmode hpolicy hbelow

end Sys2Proof.Machine
end

section
/-! The operations that set the policy and the budget (43_eink_scheduler.md R254, R255): one field each, and no call. -/

namespace Sys2Proof.Machine

theorem exec_setautoOf (p : RefreshPolicy) (s : State) : exec (setautoOf p) s = (setAuto p s).silent.complete := by
  cases p <;> rfl

theorem exec_eSetmax (n : BitVec 32) (s : State) :
    exec (.eSetmax n) s = (inOrder [requirePanelReady, fun s1 => .ok () (s1.setMaxPartial n)] s).silent.complete := rfl

theorem setAuto_next (p : RefreshPolicy) {s : State} (hready : s.eReady = true) :
    ∃ r o d, exec (setautoOf p) s =
      .next { s with st := 0, r := r, dout := o, drawn := d, panel := { s.panel with autoRefreshMode := p } } := by
  rw [exec_setautoOf]
  exact silent_next (setAuto_ready p s hready)

/-- Settles O45: the policy stored by each row, or the gate. -/
theorem setAutoRefresh : Obligations.SetAutoRefresh := by
  unfold Obligations.SetAutoRefresh
  intro s
  refine ⟨fun hready => ⟨setAuto_next .noPolicy hready, setAuto_next .fullRefresh hready,
    setAuto_next .clearToWhite hready⟩, fun hready p => ?_, fun _ _ _ => ⟨rfl, rfl, rfl, rfl⟩⟩
  rw [exec_setautoOf]
  exact panelNotReady_next hready _

/-- Settles O46: the budget stored, or the gate. -/
theorem setMaxPartialRefreshes : Obligations.SetMaxPartialRefreshes := by
  unfold Obligations.SetMaxPartialRefreshes
  intro s n
  rw [exec_eSetmax]
  refine ⟨fun hready => silent_next (t := s.setMaxPartial n) ?_, fun hready => panelNotReady_next hready _,
    fun _ _ _ => rfl⟩
  rw [inOrder_ready hready, inOrder_singleton]

end Sys2Proof.Machine
end

section
/-! The quiet run of an upload (43_eink_scheduler.md R250 to R262): on a panel that is never busy and a bus that does
not fail, each half of an upload emits its records and moves the refresh state, and nothing else. -/

namespace Sys2Proof.Machine

/-- Where the calls of `es` are answered quietly, the piece emits `es` and leaves the refresh state `p`. -/
def Runs (s : State) (es : List Record) (p : PanelUnit) (x : Res Unit) : Prop :=
  s.quietFor es → x = .ok () { s.ran es with panel := p }

theorem runs_set (s : State) (p : PanelUnit) : Runs s [] p (.ok () { s with panel := p }) := fun _ => by
  rw [ran_nil]

/-- A piece that only calls the panel. -/
theorem Emits.runs {q : State → Res Unit} {s : State} {es : List Record} (h : Emits q s es) :
    Runs s es s.panel (q s) := h s (.refl s)

/-- The refresh state a piece finds is set before it. -/
theorem Runs.after_set {s : State} {q p : PanelUnit} {es : List Record} {x : Res Unit}
    (h : Runs { s with panel := q } es p x) : Runs s es p x := h

theorem Runs.bind {s : State} {p p' : PanelUnit} {a b : List Record} {x : Res Unit} {k : Unit → State → Res Unit}
    (hx : Runs s a p x) (hk : ∀ t, t.par = s.par → t.panel = p → Runs t b p' (k () t)) :
    Runs s (a ++ b) p' (x.bind k) := by
  intro hq
  obtain ⟨ha, hb⟩ := (quietFor_append s a b).mp hq
  rw [hx ha, bind_ok, hk { s.ran a with panel := p } rfl rfl hb, ran_append]
  rfl

/-- Block state written last. -/
theorem Runs.bind_set {s : State} {p : PanelUnit} {a : List Record} {x : Res Unit} (hx : Runs s a p x)
    (f : PanelUnit → PanelUnit) : Runs s a (f p) (x.bind fun _ t => .ok () { t with panel := f t.panel }) := by
  rw [← List.append_nil a]
  refine hx.bind fun t _ hp => ?_
  rw [← hp]
  exact runs_set t (f t.panel)

/-- `post_upload` where a counted upload ends and no cycle is open. -/
theorem runs_postUpload_count {s : State} (hmode : s.panel.refreshMode = .partialMode)
    (hpolicy : s.panel.autoRefreshMode ≠ .noPolicy) (hr : s.panel.autoRefreshing = false) :
    Runs s (refreshRecords .partialMode) { s.panel with partialRefreshCount := s.panel.partialRefreshCount + 1 }
      (postUpload s) := by
  rw [postUpload_count s hmode hpolicy hr]
  exact (emits_refreshDisplay .partialMode s).runs.bind_set fun p =>
    { p with partialRefreshCount := p.partialRefreshCount + 1 }

/-- `post_upload` where a FullRefresh cycle ends. -/
theorem runs_postUpload_endFullRefresh {s : State} (hmode : s.panel.refreshMode = .partialMode)
    (hpolicy : s.panel.autoRefreshMode = .fullRefresh) (hr : s.panel.autoRefreshing = true) :
    Runs s (refreshRecords .fullMode ++ applyConfigRecords s.par s.panel.width s.panel.height .partialMode)
      { s.panel with partialRefreshCount := 0, autoRefreshing := false } (postUpload s) := by
  rw [postUpload_endFullRefresh s hmode hpolicy hr]
  refine (emits_refreshDisplay .fullMode s).runs.bind fun t hpar hpanel => ?_
  rw [← hpar, ← hpanel]
  exact (emits_applyConfig .partialMode ((t.setPartialCount 0).setAutoRefreshing false)).runs

/-- `post_upload` where a ClearToWhite cycle ends. -/
theorem runs_postUpload_endClearToWhite {s : State} (hmode : s.panel.refreshMode = .partialMode)
    (hpolicy : s.panel.autoRefreshMode = .clearToWhite) (hr : s.panel.autoRefreshing = true) :
    Runs s (refreshRecords .partialMode) { s.panel with partialRefreshCount := 0, autoRefreshing := false }
      (postUpload s) := by
  rw [postUpload_endClearToWhite s hmode hpolicy hr]
  exact (emits_refreshDisplay .partialMode s).runs.bind_set fun p =>
    { p with partialRefreshCount := 0, autoRefreshing := false }

theorem runs_postUpload (s : State) : Runs s (postRecords s.par s.panel) (afterPost s.panel) (postUpload s) := by
  unfold postRecords afterPost
  by_cases hfull : s.panel.refreshMode = .fullMode
  · rw [if_pos hfull, if_pos (.inl hfull), postUpload_full s hfull]
    exact (emits_refreshDisplay .fullMode s).runs
  have hmode := partialMode_of_ne_full hfull
  rw [if_neg hfull]
  by_cases hnone : s.panel.autoRefreshMode = .noPolicy
  · rw [if_neg (by simp [hnone]), if_pos (.inr hnone), postUpload_noPolicy s hmode hnone]
    exact (emits_refreshDisplay .partialMode s).runs
  rw [if_neg (not_or.mpr ⟨hfull, hnone⟩)]
  cases hr : s.panel.autoRefreshing with
  | false =>
    rw [if_neg (by simp), if_neg Bool.false_ne_true, ← hr]
    exact runs_postUpload_count hmode hnone hr
  | true =>
    rw [if_pos rfl]
    cases hpolicy : s.panel.autoRefreshMode with
    | noPolicy => exact absurd hpolicy hnone
    | fullRefresh =>
      rw [if_pos ⟨rfl, rfl⟩, ← hpolicy]
      exact runs_postUpload_endFullRefresh hmode hpolicy hr
    | clearToWhite =>
      rw [if_neg (by simp), ← hpolicy]
      exact runs_postUpload_endClearToWhite hmode hpolicy hr

/-- The white upload of a ClearToWhite cycle (R252). -/
theorem runs_nestedClear {s : State} (h : s.panel.autoRefreshing = true) :
    Runs s (uploadFullRecords s.panel.width s.panel.height (uniformFrame false s.panel) ++ postRecords s.par s.panel)
      (afterPost s.panel) (nestedClear s) := by
  simp only [nestedClear, uploadWith, inOrder_cons, preUploadWith_refreshing _ s h, bind_ok]
  refine (emits_uploadFull _ s).runs.bind fun t hpar hpanel => ?_
  rw [← inOrder_cons, inOrder_singleton, ← hpar, ← hpanel]
  exact runs_postUpload t

theorem runs_preUpload (s : State) : Runs s (preRecords s.par s.panel) (afterPre s.panel) (preUpload s) := by
  unfold preRecords afterPre
  by_cases hidle : startsCycle s.panel = false ∨ s.panel.autoRefreshing = true
  · rw [if_pos hidle, if_pos hidle, preUpload_idle s hidle]
    exact runs_set s s.panel
  rw [if_neg hidle, if_neg hidle]
  obtain ⟨hstarts, hr⟩ := not_or.mp hidle
  rw [Bool.not_eq_false] at hstarts
  rw [Bool.not_eq_true] at hr
  cases hpolicy : s.panel.autoRefreshMode with
  | noPolicy => simp [startsCycle, hpolicy] at hstarts
  | fullRefresh =>
    rw [if_pos rfl, if_pos rfl, preUpload_fullRefresh s hstarts hr hpolicy, ← hpolicy]
    exact (emits_applyConfig .fullMode (s.setAutoRefreshing true)).runs.after_set
  | clearToWhite =>
    rw [if_neg (by decide), if_neg (by decide), preUpload_clearToWhite s hstarts hr hpolicy, ← hpolicy]
    exact (runs_nestedClear (s := s.setAutoRefreshing true) rfl).after_set

/-- One upload operation (R250), its body's records given by the parameters and the size, which no half moves. -/
theorem runs_upload {body : State → Res Unit} {records : Params → PanelUnit → List Record} {s : State}
    (hr : s.panel.autoRefreshing = false) (hbody : ∀ t, Emits body t (records t.par t.panel))
    (hsize : ∀ p n b, records s.par { p with partialRefreshCount := n, autoRefreshing := b } = records s.par p) :
    Runs s (uploadPlan s.par s.panel (records s.par s.panel)) (panelAfterUpload s.panel)
      (uploadWith preUpload body s) := by
  rw [uploadPlan_eq _ _ _ hr, ← afterPost_afterPre s.panel hr]
  simp only [uploadWith, inOrder_cons]
  refine (runs_preUpload s).bind fun t hpar hpanel => ?_
  have hrecords : records t.par t.panel = records s.par s.panel := by
    obtain ⟨n, b, hpre⟩ := afterPre_eq_update s.panel
    rw [hpar, hpanel, hpre, hsize]
  rw [← hrecords, ← hpanel]
  refine (hbody t).runs.bind fun u hpar' hpanel' => ?_
  rw [← inOrder_cons, inOrder_singleton, ← hpar, ← hpar', ← hpanel']
  exact runs_postUpload u

/-! The operations. -/

theorem Runs.next {x : Res Unit} {s : State} {es : List Record} {p : PanelUnit} (hx : Runs s es p x)
    (hq : s.quietFor es) :
    ∃ r o d, x.silent.complete = .next { s.ran es with st := 0, r := r, dout := o, drawn := d, panel := p } :=
  silent_next (hx hq)

/-- `E.SETMODE` (R251): the fields first, then the configuration of the new mode. -/
theorem runs_setMode (m : RefreshMode) {s : State} (hready : s.eReady = true) :
    Runs s (applyConfigRecords s.par s.panel.width s.panel.height m)
      (if m = .fullMode then { s.panel with refreshMode := m, partialRefreshCount := 0 }
        else { s.panel with refreshMode := m }) (setMode m s) := by
  rw [setMode_ready m s hready]
  cases m with
  | partialMode => exact (emits_applyConfig .partialMode (s.setRefreshMode .partialMode)).runs.after_set
  | fullMode => exact (emits_applyConfig .fullMode ((s.setRefreshMode .fullMode).setPartialCount 0)).runs.after_set

/-- Settles O44: the quiet run of each form. -/
theorem setRefreshMode : Obligations.SetRefreshMode := by
  unfold Obligations.SetRefreshMode
  intro s hready
  exact ⟨(runs_setMode .partialMode hready).next, (runs_setMode .fullMode hready).next⟩

theorem runs_rawFb (data : List Byte) {s : State} (hr : s.panel.autoRefreshing = false) :
    Runs s (uploadPlan s.par s.panel (uploadFullRecords s.panel.width s.panel.height data)) (panelAfterUpload s.panel)
      (rawFb data s) :=
  runs_upload (records := fun _ p => uploadFullRecords p.width p.height data) hr (emits_uploadFull data)
    fun _ _ _ => rfl

/-- Settles O47: the two halves of R262 around the upload of `DIN`. -/
theorem rawFramebufferUpload : Obligations.RawFramebufferUpload := by
  unfold Obligations.RawFramebufferUpload
  rintro s din es hready hr rfl hq
  rw [exec_eRawfb, inOrder_ready hready, inOrder_singleton]
  exact (runs_rawFb din hr).next hq

theorem clearPanel_next (toBlack : Bool) {s : State} (hready : s.eReady = true) (hr : s.panel.autoRefreshing = false)
    {es : List Record}
    (hes : es = uploadPlan s.par s.panel
      (uploadFullRecords s.panel.width s.panel.height (uniformFrame toBlack s.panel)))
    (hq : s.quietFor es) :
    ∃ r o d, exec (clearOf toBlack) s =
      .next { s.ran es with st := 0, r := r, dout := o, drawn := d, panel := panelAfterUpload s.panel } := by
  subst hes
  rw [exec_clearOf, inOrder_ready hready, inOrder_singleton, clearPanel]
  exact (runs_rawFb _ hr).next hq

/-- Settles O48: a clear is the upload of its uniform frame. -/
theorem clearUploadsAUniformFrame : Obligations.ClearUploadsAUniformFrame := by
  unfold Obligations.ClearUploadsAUniformFrame
  intro s es hready hr
  exact ⟨clearPanel_next false hready hr, clearPanel_next true hready hr⟩

/-- Every row of a region that is not empty has an offset (R222). -/
theorem regionOffsetsOk_of_rows {par : Params} {p : PanelUnit} {o : Overlap}
    (h : overlapEmpty o = true ∨ ∀ row < overlapHeight o,
      0 ≤ offsetBaseW par p.width - 2 - o.cx0 ∧ 0 ≤ offsetBaseH par p.height - row - o.cy0 ∧
        offsetBaseH par p.height - row - o.cy0 ≤ 65535) : regionOffsetsOk par p o = true := by
  rw [regionOffsetsOk, Bool.or_eq_true, List.all_eq_true]
  refine h.imp_right fun hrows row hrow => ?_
  simpa [rowOffsetOk, rowOffset, and_assoc] using hrows row (List.mem_range.mp hrow)

theorem runs_putBitmap (px py : Int) (bw bh : BitVec 16) (din : List Byte) {s : State}
    (hr : s.panel.autoRefreshing = false) :
    Runs s (uploadPlan s.par s.panel (uploadBitmapRecords s.par s.panel px py bw bh din)) (panelAfterUpload s.panel)
      (uploadWith preUpload (uploadBitmap px py bw bh din) s) :=
  runs_upload (records := fun par p => uploadBitmapRecords par p px py bw bh din) hr
    (emits_uploadBitmap px py bw bh din) fun _ _ _ => rfl

/-- Settles O49: both checks are passed, then the two halves of R262 around the rows of the overlap. -/
theorem putBitmapUpload : Obligations.PutBitmapUpload := by
  unfold Obligations.PutBitmapUpload
  rintro s px py bw bh din es o hready hr hlen rfl hrows rfl hq
  rw [exec_ePutbmp, inOrder_ready hready, inOrder_bitmapAccepted (decide_eq_true hlen) (regionOffsetsOk_of_rows hrows),
    inOrder_singleton]
  exact (runs_putBitmap px.toInt py.toInt bw bh din hr).next hq

end Sys2Proof.Machine
end

section
/-! Failed calls in the trace (60_exceptions.md R291, R296): what a run adds to it, with a failed call only as the last
record and only where the run ends in `TransportError`; and every instruction as a run of its unit's kind. -/

namespace Sys2Proof.Machine

/-! What the trace gains. -/

/-- The trace has gained records, none but the last of a failed call, and the last one of such a call exactly if
`failed`. -/
def Gains (failed : Prop) (s s' : State) : Prop :=
  ∃ es, s'.trace = s.trace ++ es ∧ (∀ e ∈ es.dropLast, callFailed e = false) ∧
    (failed ↔ ∃ e, es.getLast? = some e ∧ callFailed e = true)

/-- Only the trace matters, and whether a call has failed. -/
theorem Gains.congr {p q : Prop} {s s' t : State} (h : Gains p s s') (hpq : q ↔ p) (ht : t.trace = s'.trace) :
    Gains q s t := by
  obtain ⟨es, htrace, hinit, hlast⟩ := h
  exact ⟨es, ht.trans htrace, hinit, hpq.trans hlast⟩

theorem gains_record {failed : Prop} {s s' : State} {e : Record} (h : s'.trace = s.trace ++ [e])
    (he : failed ↔ callFailed e = true) : Gains failed s s' :=
  ⟨[e], h, by simp, by simpa using he⟩

/-- No call fails exactly if none of the records is of a failed call. -/
theorem gains_false_iff {s s' : State} :
    Gains False s s' ↔ ∃ es, s'.trace = s.trace ++ es ∧ ∀ e ∈ es, callFailed e = false := by
  constructor
  · rintro ⟨es, htrace, hinit, hlast⟩
    refine ⟨es, htrace, fun e he => ?_⟩
    rcases List.eq_nil_or_concat es with rfl | ⟨init, last, rfl⟩
    · exact absurd he List.not_mem_nil
    · rw [List.concat_eq_append] at hinit hlast he
      have hok : callFailed last = false := by simpa using hlast
      simp only [List.mem_append, List.mem_singleton] at he
      simp only [List.dropLast_concat] at hinit
      exact he.elim (hinit e) fun h => h ▸ hok
  · rintro ⟨es, htrace, hes⟩
    refine ⟨es, htrace, fun e he => hes e (List.mem_of_mem_dropLast he), (false_iff _).mpr ?_⟩
    rintro ⟨e, he, hfail⟩
    exact absurd (hes e (List.mem_of_getLast? he)) (by simp [hfail])

theorem gains_of_trace_eq {s s' : State} (h : s'.trace = s.trace) : Gains False s s' :=
  gains_false_iff.mpr ⟨[], by rw [h, List.append_nil], by simp⟩

/-- A run goes on only while no call has failed. -/
theorem Gains.trans {failed : Prop} {a b c : State} (h1 : Gains False a b) (h2 : Gains failed b c) :
    Gains failed a c := by
  obtain ⟨es1, ht1, hok⟩ := gains_false_iff.mp h1
  obtain ⟨es2, ht2, hinit, hlast⟩ := h2
  have htrace : c.trace = a.trace ++ (es1 ++ es2) := by rw [ht2, ht1, List.append_assoc]
  by_cases hes : es2 = []
  · subst hes
    have hfailed : failed ↔ False := by simpa using hlast
    exact (gains_false_iff.mpr ⟨_, htrace, by simpa using hok⟩).congr hfailed rfl
  · refine ⟨es1 ++ es2, htrace, fun e he => ?_, ?_⟩
    · rw [List.dropLast_append_of_ne_nil hes] at he
      exact (List.mem_append.mp he).elim (hok e) (hinit e)
    · rwa [List.getLast?_append_of_ne_nil _ hes]

/-! Where a run ends. -/

/-- A run from `s` goes on with no call failed, and raises `TransportError` exactly where its last call failed. -/
def FailsLast {α : Type} (s : State) (x : Res α) : Prop := x.ends (Gains False s) fun e => Gains (errorCode e = 1) s

theorem failsLast_ok {α : Type} {s s' : State} (a : α) (h : s'.trace = s.trace) : FailsLast s (.ok a s') :=
  gains_of_trace_eq h

theorem failsLast_bind {α β : Type} {s : State} {x : Res α} {k : α → State → Res β} (hx : FailsLast s x)
    (hk : ∀ a s1, FailsLast s1 (k a s1)) : FailsLast s (x.bind k) :=
  ends_bind hx fun a s1 h1 => ends_mono (hk a s1) (fun _ h => h1.trans h) fun _ _ h => h1.trans h

/-- An error that is no failed call. -/
theorem failsLast_raised {α : Type} {s s' : State} {e : Error} (he : errorCode e ≠ 1) (h : s'.trace = s.trace) :
    FailsLast s (.raised e s' : Res α) := (gains_of_trace_eq h).congr (iff_false_intro he) rfl

theorem failsLast_gate {s : State} {φ : Prop} {x : Res Unit} (h : Gate s φ x) : FailsLast s x := by
  refine ends_mono h ?_ ?_
  · rintro s' ⟨rfl, -⟩
    exact gains_of_trace_eq rfl
  · rintro e s' ⟨hmild, rfl⟩
    exact failsLast_raised (α := Unit) (errorCode_ne_one hmild) rfl

theorem failsLast_silent {s : State} {x : Res Unit} (h : FailsLast s x) : FailsLast s x.silent := silent_ends h

/-- `ST` is 1 after a `TransportError` alone, and neither presenting nor raising emits a record (R290, R296). -/
theorem FailsLast.next {s t : State} {x : Res Results} (hx : FailsLast s x) (h : x.complete = .next t) :
    Gains (t.st = 1) s t :=
  next_of_ends (R := fun t => Gains (t.st = 1) s t) hx
    (fun s' res hs => hs.congr (iff_false_intro (by decide : (0 : BitVec 8) ≠ 1)) rfl)
    (fun e s' hs => hs.congr Iff.rfl (State.raise_trace s' e)) h

/-! The calls of the environment (R9, R10). -/

theorem failsLast_lineWait (line : Line) (tm : Timeout) (ans : WaitAnswer) (s s' : State) (hs : s'.trace = s.trace) :
    FailsLast s (lineWait line tm ans s') := by
  unfold lineWait
  cases waitResult tm ans with
  | none => trivial
  | some b => exact gains_record (congrArg (· ++ [_]) hs) (by simp [callFailed])

theorem failsLast_regRead (reg : BitVec 16) (n : Nat) (s : State) : FailsLast s (regRead reg n s) := by
  unfold regRead
  cases s.nextRegRead with
  | none => exact gains_record rfl (iff_of_true rfl rfl)
  | some bytes => exact gains_record rfl (by simp [callFailed])

theorem failsLast_regWrite (reg : BitVec 16) (payload : List Byte) (s : State) :
    FailsLast s (regWrite reg payload s) := by
  unfold regWrite
  cases s.nextRegWrite with
  | false => exact gains_record rfl (iff_of_true rfl rfl)
  | true => exact gains_record rfl (by simp [callFailed])

/-! Pieces of the panel sequencer (R211 to R228). -/

/-- The piece ends at its first failed call, from every state. -/
def FailsLastPiece (p : State → Res Unit) : Prop := ∀ s, FailsLast s (p s)

theorem FailsLastPiece.nil : FailsLastPiece (inOrder []) := fun _ => failsLast_ok () rfl

theorem FailsLastPiece.cons {p : State → Res Unit} {l : List (State → Res Unit)} (hp : FailsLastPiece p)
    (hl : FailsLastPiece (inOrder l)) : FailsLastPiece (inOrder (p :: l)) :=
  fun s => failsLast_bind (hp s) fun _ => hl

theorem FailsLastPiece.inOrder {l : List (State → Res Unit)} (h : ∀ p ∈ l, FailsLastPiece p) :
    FailsLastPiece (inOrder l) := by
  induction l with
  | nil => exact .nil
  | cons p l ih => exact (h p List.mem_cons_self).cons (ih fun q hq => h q (List.mem_cons_of_mem p hq))

/-- Block state written, no call made. -/
theorem failsLastPiece_set (f : State → State) (h : ∀ s, (f s).trace = s.trace) :
    FailsLastPiece fun s => .ok () (f s) := fun s => failsLast_ok () (h s)

/-- A line or a pause cannot fail (D47). -/
theorem failsLastPiece_emit {e : Record} (he : callFailed e = false) : FailsLastPiece fun s => .ok () (s.emit e) :=
  fun _ => gains_record rfl (by simp [he])

@[simp] theorem failsLastPiece_lineSet (l : Line) (b : Bool) : FailsLastPiece (lineSet l b) := failsLastPiece_emit rfl

@[simp] theorem failsLastPiece_lineDrain (l : Line) : FailsLastPiece (lineDrain l) := failsLastPiece_emit rfl

@[simp] theorem failsLastPiece_pause (ms : Nat) : FailsLastPiece (pause ms) := failsLastPiece_emit rfl

@[simp] theorem failsLastPiece_spiWrite (bytes : List Byte) : FailsLastPiece (spiWrite bytes) := by
  intro s
  unfold spiWrite
  cases s.nextSpiWrite with
  | false => exact gains_record rfl (iff_of_true rfl rfl)
  | true => exact gains_record rfl (by simp [callFailed])

@[simp] theorem failsLastPiece_sendCmd (op : Byte) (payload : List Byte) : FailsLastPiece (sendCmd op payload) := by
  refine FailsLastPiece.inOrder ?_
  split <;> simp

@[simp] theorem failsLastPiece_waitForBusy : FailsLastPiece waitForBusy := by
  have hget (s : State) : FailsLast s (busyGet s) := gains_record rfl (by simp [callFailed])
  have hwait (tm : Timeout) (s : State) : FailsLast s (busyWait tm s) := failsLast_lineWait .eBusy tm _ s _ rfl
  refine fun s => failsLast_bind (hget s) fun busy s1 => ?_
  split
  · exact failsLast_bind (failsLastPiece_lineDrain .eBusy s1) fun _ s2 =>
      failsLast_bind (hwait _ s2) fun _ => failsLastPiece_lineDrain .eBusy
  · exact failsLast_ok () rfl

@[simp] theorem failsLastPiece_hwReset : FailsLastPiece hwReset := by
  refine fun s => FailsLastPiece.inOrder (fun p hp => ?_) s
  obtain ⟨a, -, rfl⟩ := List.mem_map.mp hp
  cases a with
  | setLine level => exact failsLastPiece_lineSet .eRst level
  | pause ms => exact failsLastPiece_pause ms

@[simp] theorem failsLastPiece_sendDataInputMode : FailsLastPiece sendDataInputMode :=
  fun s => failsLastPiece_sendCmd _ _ s

@[simp] theorem failsLastPiece_sendDriverOutputControl : FailsLastPiece sendDriverOutputControl :=
  fun s => failsLastPiece_sendCmd _ _ s

@[simp] theorem failsLastPiece_applyConfig (m : RefreshMode) : FailsLastPiece (applyConfig m) := by
  refine FailsLastPiece.inOrder ?_
  cases m <;> simp [waveformCommands]

@[simp] theorem failsLastPiece_refreshDisplay (m : RefreshMode) : FailsLastPiece (refreshDisplay m) :=
  FailsLastPiece.inOrder (by simp)

@[simp] theorem failsLastPiece_setDrawRegion (x0 y0 x1 y1 : Nat) : FailsLastPiece (setDrawRegion x0 y0 x1 y1) :=
  FailsLastPiece.inOrder (by simp)

@[simp] theorem failsLastPiece_setDrawOffset (ox oy : Nat) : FailsLastPiece (setDrawOffset ox oy) :=
  FailsLastPiece.inOrder (by simp)

@[simp] theorem failsLastPiece_uploadFull (data : List Byte) : FailsLastPiece (uploadFull data) :=
  fun s => FailsLastPiece.inOrder (by simp) s

theorem failsLastPiece_uploadRow (o : Overlap) (px py : Int) (bw bh : BitVec 16) (din : List Byte) (r : Nat) :
    FailsLastPiece (uploadRow o px py bw bh din r) := fun s => FailsLastPiece.inOrder (by simp) s

@[simp] theorem failsLastPiece_uploadBitmap (px py : Int) (bw bh : BitVec 16) (din : List Byte) :
    FailsLastPiece (uploadBitmap px py bw bh din) := by
  intro s
  unfold uploadBitmap
  dsimp only
  split
  · exact failsLast_ok () rfl
  · refine FailsLastPiece.inOrder ?_ s
    simp [failsLastPiece_uploadRow]

/-! The scheduler (R250 to R253). -/

@[simp] theorem failsLastPiece_postUpload : FailsLastPiece postUpload := by
  have hcount (n : State → BitVec 32) : FailsLastPiece fun s => .ok () (s.setPartialCount (n s)) :=
    failsLastPiece_set _ fun _ => rfl
  have hended : FailsLastPiece fun s => .ok () (s.setAutoRefreshing false) := failsLastPiece_set _ fun _ => rfl
  intro s
  unfold postUpload
  split
  · exact failsLastPiece_refreshDisplay _ s
  split
  · exact failsLastPiece_refreshDisplay _ s
  split
  · split
    · exact (failsLastPiece_refreshDisplay _).cons ((hcount _).cons (hended.cons (.inOrder (by simp)))) s
    · exact (failsLastPiece_refreshDisplay _).cons ((hcount _).cons (hended.cons .nil)) s
  · exact (failsLastPiece_refreshDisplay _).cons ((hcount _).cons .nil) s

theorem failsLastPiece_preUploadWith {white : State → Res Unit} (hwhite : FailsLastPiece white) :
    FailsLastPiece (preUploadWith white) := by
  intro s
  unfold preUploadWith
  split; · exact failsLast_ok () rfl
  split; · exact failsLast_ok () rfl
  split; · exact failsLast_ok () rfl
  split; · exact failsLast_ok () rfl
  split
  · exact failsLastPiece_applyConfig .fullMode (s.setAutoRefreshing true)
  · exact hwhite (s.setAutoRefreshing true)

theorem failsLastPiece_uploadWith {pre body : State → Res Unit} (hpre : FailsLastPiece pre)
    (hbody : FailsLastPiece body) : FailsLastPiece (uploadWith pre body) :=
  FailsLastPiece.inOrder (by simp [hpre, hbody])

@[simp] theorem failsLastPiece_preUpload : FailsLastPiece preUpload := by
  have huniform : FailsLastPiece (uploadUniform false) := fun s => failsLastPiece_uploadFull _ s
  exact failsLastPiece_preUploadWith
    (failsLastPiece_uploadWith (failsLastPiece_preUploadWith (failsLastPiece_set id fun _ => rfl)) huniform)

@[simp] theorem failsLastPiece_rawFb (data : List Byte) : FailsLastPiece (rawFb data) :=
  failsLastPiece_uploadWith failsLastPiece_preUpload (failsLastPiece_uploadFull data)

@[simp] theorem failsLastPiece_clearPanel (toBlack : Bool) : FailsLastPiece (clearPanel toBlack) :=
  fun s => failsLastPiece_rawFb _ s

/-! The operations of ERS. -/

@[simp] theorem failsLastPiece_panelReady : FailsLastPiece requirePanelReady :=
  fun s => failsLast_gate (gate_panelReady s)

@[simp] theorem failsLastPiece_size (w h : BitVec 16) : FailsLastPiece (requireSize w h) :=
  fun s => failsLast_gate (gate_size w h s)

@[simp] theorem failsLastPiece_bitmap (bw bh : BitVec 16) (din : List Byte) :
    FailsLastPiece (requireBitmap bw bh din) := fun s => failsLast_gate (gate_bitmap bw bh din s)

@[simp] theorem failsLastPiece_offsets (px py : Int) (bw bh : BitVec 16) :
    FailsLastPiece (requireOffsets px py bw bh) := fun s => failsLast_gate (gate_offsets px py bw bh s)

theorem failsLastPiece_setMode (m : RefreshMode) : FailsLastPiece (setMode m) := by
  have hmode : FailsLastPiece fun s => .ok () (s.setRefreshMode m) := failsLastPiece_set _ fun _ => rfl
  have hcount : FailsLastPiece fun s => .ok () (if m = .fullMode then s.setPartialCount 0 else s) :=
    failsLastPiece_set _ fun s => by split <;> rfl
  exact failsLastPiece_panelReady.cons (hmode.cons (hcount.cons (.inOrder (by simp))))

/-- An operation that writes one piece of state on a ready unit. -/
theorem failsLastPiece_readySet (f : State → State) (h : ∀ s, (f s).trace = s.trace) :
    FailsLastPiece (inOrder [requirePanelReady, fun s => .ok () (f s)]) :=
  failsLastPiece_panelReady.cons ((failsLastPiece_set f h).cons .nil)

theorem failsLastPiece_setAuto (p : RefreshPolicy) : FailsLastPiece (setAuto p) :=
  failsLastPiece_readySet (State.setAutoRefreshMode · p) fun _ => rfl

theorem failsLastPiece_setSize (w h : BitVec 16) :
    FailsLastPiece (inOrder [requirePanelReady, requireSize w h, fun s => .ok () (s.setSize w h)]) :=
  failsLastPiece_panelReady.cons ((failsLastPiece_size w h).cons
    ((failsLastPiece_set (State.setSize · w h) fun _ => rfl).cons .nil))

theorem failsLastPiece_initPanel (w h : BitVec 16) : FailsLastPiece (initPanel w h) := by
  have hsetup : FailsLastPiece (emitAll configRecords) := fun s =>
    gains_false_iff.mpr ⟨configRecords, by simp [configRecords, State.emit], by decide⟩
  have hready (b : Bool) : FailsLastPiece fun s => .ok () (s.setEReady b) := failsLastPiece_set _ fun _ => rfl
  have hpanel : FailsLastPiece fun s => .ok () { s with panel := initialPanel s.par w h } :=
    failsLastPiece_set _ fun _ => rfl
  exact (failsLastPiece_size w h).cons ((hready false).cons (hsetup.cons
    (hpanel.cons ((failsLastPiece_applyConfig _).cons ((hready true).cons .nil)))))

theorem failsLastPiece_putBitmap (px py : Int) (bw bh : BitVec 16) (din : List Byte) :
    FailsLastPiece (inOrder [requirePanelReady, requireBitmap bw bh din, requireOffsets px py bw bh,
      uploadWith preUpload (uploadBitmap px py bw bh din)]) :=
  FailsLastPiece.inOrder (by simp [failsLastPiece_uploadWith])

/-! Unit TES. -/

theorem failsLast_fieldOr {α : Type} (f : Option α) (s : State) : FailsLast s (fieldOr f s) := by
  cases f with
  | none => exact failsLast_raised (by decide) rfl
  | some a => exact failsLast_ok a rfl

theorem failsLast_regReadExact (reg : BitVec 16) (n : Nat) (s : State) : FailsLast s (regReadExact reg n s) :=
  failsLast_bind (failsLast_regRead reg n s) fun _ => failsLast_fieldOr _

theorem failsLast_regReadByte (reg : BitVec 16) (s : State) : FailsLast s (regReadByte reg s) :=
  failsLast_bind (failsLast_regReadExact reg 1 s) fun _ _ => failsLast_ok _ rfl

theorem failsLast_readAccess (reg : BitVec 16) (n : Nat) (s : State) : FailsLast s (readAccess reg n s) :=
  failsLast_bind (failsLast_regReadExact reg n s) fun _ _ => failsLast_ok _ rfl

theorem failsLast_touchWait (tm : Timeout) (s : State) : FailsLast s (touchWait tm s) :=
  failsLast_lineWait .tInt tm _ s _ rfl

theorem failsLast_touchReady (s : State) : FailsLast s (requireTouchReady s) := failsLast_gate (gate_touchReady s)

theorem failsLastPiece_touchResetSequence : FailsLastPiece touchResetSequence := by
  have htable : FailsLastPiece fun s => .ok () (s.setTable []) := failsLastPiece_set _ fun _ => rfl
  exact fun s => FailsLastPiece.inOrder (by simp [htable]) s

theorem failsLast_lockTouch (s : State) : FailsLast s (lockTouch s) :=
  failsLast_bind (failsLast_touchReady s) fun _ s1 =>
    failsLast_bind (failsLast_regWrite _ _ s1) fun _ _ => failsLast_ok () rfl

theorem failsLast_readConfig (answer : List Byte) (s : State) : FailsLast s (readConfig answer s) := by
  refine failsLast_bind (failsLast_fieldOr _ s) fun _ s1 => ?_
  refine failsLast_bind (failsLast_fieldOr _ (s1.setCfg _)) fun _ s2 => ?_
  exact failsLast_bind (failsLast_fieldOr _ (s2.setCfg _)) fun _ _ => failsLast_ok () rfl

theorem failsLast_initTouch (s : State) : FailsLast s (initTouch s) := by
  refine failsLast_bind (failsLastPiece_touchResetSequence (s.setTReady false)) fun _ s1 => ?_
  refine failsLast_bind (failsLast_regReadExact regId 4 (s1.setLocked false)) fun ident s2 => ?_
  split
  · exact failsLast_raised (by decide) rfl
  · exact failsLast_bind (failsLast_regRead _ _ s2) fun _ s3 =>
      failsLast_bind (failsLast_readConfig _ s3) fun _ _ => failsLast_ok () rfl

theorem failsLast_lockedPoll (s : State) : FailsLast s (lockedPoll s) := by
  refine failsLast_bind (failsLast_regReadByte _ s) fun status s1 => ?_
  split
  · exact failsLast_bind (failsLastPiece_touchResetSequence s1) fun _ _ => failsLast_ok _ rfl
  · exact failsLast_bind (failsLast_regWrite _ _ s1) fun _ _ => failsLast_ok _ rfl

theorem failsLast_framePoll (count : Nat) (s : State) : FailsLast s (framePoll count s) := by
  refine failsLast_bind (failsLast_regRead _ _ s) fun frame s1 => ?_
  refine failsLast_bind (failsLast_fieldOr _ s1) fun rs s2 => ?_
  split
  · exact failsLast_ok _ rfl
  · trivial

theorem failsLast_unlockedPoll (s : State) : FailsLast s (unlockedPoll s) := by
  refine failsLast_bind (failsLast_regReadByte _ s) fun status s1 => ?_
  split
  · exact failsLast_ok _ rfl
  · refine failsLast_bind (failsLast_regWrite _ _ s1) fun _ s2 => ?_
    dsimp only
    split
    · exact failsLast_ok _ rfl
    · exact failsLast_framePoll _ s2

theorem failsLast_pollTouch (s : State) : FailsLast s (pollTouch s) := by
  refine failsLast_bind (failsLast_touchReady s) fun _ s1 => ?_
  refine failsLast_bind (failsLast_touchWait _ s1) fun pending s2 => ?_
  split
  · exact failsLast_ok _ rfl
  split
  · exact failsLast_lockedPoll s2
  · exact failsLast_unlockedPoll s2

/-! Unit BBC has no bus. -/

theorem CodecEnds.failsLast {s : State} {x : Res Results} (h : CodecEnds s x) : FailsLast s x := by
  refine ends_mono h ?_ ?_
  · rintro s' ⟨⟨_, _, _, rfl⟩, -⟩
    exact gains_of_trace_eq rfl
  · rintro e s' ⟨hmild, rfl⟩
    exact failsLast_raised (α := Unit) (errorCode_ne_one hmild) rfl

/-! Every instruction. -/

/-- An instruction completes a run that ends as the operations of its unit do, at its first failed call. -/
inductive UnitRun (i : Instr) (s : State) : Prop where
  | codec {x : Res Results} (unit : unitOf i = .bbc) (run : exec i s = x.complete) (ends : CodecEnds s x)
  | touch {x : Res Results} (unit : unitOf i = .tes) (run : exec i s = x.complete) (ends : TouchEnds i s x)
      (calls : FailsLast s x)
  | panel {x : Res Results} (unit : unitOf i = .ers) (run : exec i s = x.complete) (ends : PanelEnds i s x)
      (calls : FailsLast s x)

/-- An operation of ERS without result ports. -/
theorem unitRun_panel {i : Instr} {p : State → Res Unit} {s : State} (unit : unitOf i = .ers)
    (run : exec i s = (p s).silent.complete) (ends : PanelEnds i s (p s)) (calls : FailsLastPiece p) : UnitRun i s :=
  .panel unit run (panelEnds_silent ends) (failsLast_silent (calls s))

theorem exec_unitRun (i : Instr) (s : State) : UnitRun i s := by
  cases i with
  | bTobe1 | bTobe2 | bTobe4 | bTobe8 | bTole1 | bTole2 | bTole4 | bTole8 | bTell | bDump =>
    exact .codec rfl rfl (codecEnds_result _ s)
  | bWrapLe | bWrapBe => exact .codec rfl rfl (codecEnds_wrapBuffer _ _ s)
  | bRead1 | bRead2 | bRead4 | bRead8 => exact .codec rfl rfl (codecEnds_readBuffer _ s)
  | bWrite1 | bWrite2 | bWrite4 | bWrite8 => exact .codec rfl rfl (codecEnds_writeBuffer _ _ s)
  | bSeekBeg | bSeekCur | bSeekEnd => exact .codec rfl rfl (codecEnds_seekBuffer _ _ s)
  | tInit => exact .touch rfl rfl (touchEnds_silent (touchEnds_init s)) (failsLast_silent (failsLast_initTouch s))
  | tCfg =>
    exact .touch rfl rfl (touchEnds_cfg s) (failsLast_bind (failsLast_touchReady s) fun _ _ => failsLast_ok _ rfl)
  | tLock => exact .touch rfl rfl (touchEnds_silent (touchEnds_lock s)) (failsLast_silent (failsLast_lockTouch s))
  | tWait =>
    exact .touch rfl rfl (touchEnds_wait _ _ s) (failsLast_bind (failsLast_touchReady s) fun _ s1 =>
      failsLast_bind (failsLast_touchWait _ s1) fun _ _ => failsLast_ok _ rfl)
  | tPoll =>
    exact .touch rfl rfl (touchEnds_pollResult s)
      (failsLast_bind (failsLast_pollTouch s) fun _ _ => failsLast_ok _ rfl)
  | touchIdRead | touchConfigRead | touchStatusRead | touchFrameRead | touchLockstatusRead =>
    exact .touch rfl rfl (touchEnds_readAccess _ _ _ s) (failsLast_readAccess _ _ s)
  | touchStatusAck | touchLockctlWrite | touchLockstatusAck =>
    exact .touch rfl rfl (touchEnds_silent (touchEnds_regWrite _ _ _ s)) (failsLast_silent (failsLast_regWrite _ _ s))
  | eInit w h => exact unitRun_panel rfl rfl (panelEnds_init w h s) (failsLastPiece_initPanel w h)
  | eSetsize w h => exact unitRun_panel rfl rfl (panelEnds_setSize w h s) (failsLastPiece_setSize w h)
  | eGeom =>
    exact .panel rfl rfl (panelEnds_geometry s)
      (failsLast_bind (failsLastPiece_panelReady s) fun _ _ => failsLast_ok _ rfl)
  | eSetmodeP => exact unitRun_panel rfl rfl (panelEnds_setPartialMode s) (failsLastPiece_setMode _)
  | eSetmodeF => exact unitRun_panel rfl rfl (panelEnds_setFullMode s) (failsLastPiece_setMode _)
  | eSetautoNone => exact unitRun_panel rfl rfl (panelEnds_setAuto .noPolicy s) (failsLastPiece_setAuto _)
  | eSetautoFull => exact unitRun_panel rfl rfl (panelEnds_setAuto .fullRefresh s) (failsLastPiece_setAuto _)
  | eSetautoWhite => exact unitRun_panel rfl rfl (panelEnds_setAuto .clearToWhite s) (failsLastPiece_setAuto _)
  | eSetmax n =>
    exact unitRun_panel rfl rfl (panelEnds_setMax n s)
      (failsLastPiece_readySet (State.setMaxPartial · n) fun _ => rfl)
  | eClearW | eClearB => exact unitRun_panel rfl rfl (panelEnds_clear _ rfl _ s) (.inOrder (by simp))
  | eRawfb din => exact unitRun_panel rfl rfl (panelEnds_rawFb din s) (.inOrder (by simp))
  | ePutbmp px py bw bh din =>
    exact unitRun_panel rfl rfl (panelEnds_putBitmap px py bw bh din s) (failsLastPiece_putBitmap _ _ bw bh din)
  | ePoweroff => exact unitRun_panel rfl rfl (panelEnds_powerOff s) (.inOrder (by simp))
  | epdDriverOutputControl =>
    exact unitRun_panel rfl rfl (panelEnds_piece _ panelPiece_sendDriverOutputControl s)
      failsLastPiece_sendDriverOutputControl
  | epdDataInputMode =>
    exact unitRun_panel rfl rfl (panelEnds_piece _ panelPiece_sendDataInputMode s) failsLastPiece_sendDataInputMode
  | epdDeepSleep | epdSoftReset | epdTemperatureSource | epdBeginUpdate | epdDisplayUpdateControl1
  | epdDisplayUpdateControl2 | epdUploadImageData | epdBorderWaveformControl | epdDrawRegionX | epdDrawRegionY
  | epdDrawOffsetX | epdDrawOffsetY =>
    exact unitRun_panel rfl rfl (panelEnds_sendCmd _ _ _ s) (failsLastPiece_sendCmd _ _)

/-- Settles O34: a run of any unit ends at its first failed call, with `ST` = 1 there and nowhere else. -/
theorem aFailedCallEndsItsOperation : Obligations.AFailedCallEndsItsOperation := by
  unfold Obligations.AFailedCallEndsItsOperation
  intro i s t h
  show Gains (t.st = 1) s t
  cases exec_unitRun i s with
  | codec _ run ends => exact ends.failsLast.next (run ▸ h)
  | touch _ run _ calls => exact calls.next (run ▸ h)
  | panel _ run _ calls => exact calls.next (run ▸ h)

end Sys2Proof.Machine
end

section
/-! Readiness (60_exceptions.md R299, R300, R292): what an unready unit answers, which errors clear a ready flag, and that
an `INIT` that succeeds sets it. -/

namespace Sys2Proof.Machine

/-! The gate of R299. -/

theorem exec_touch_notReady {i : Instr} {s : State} (hhost : i.channel = .host) (hunit : unitOf i = .tes)
    (hinit : i ≠ .tInit) (hready : s.tReady = false) :
    ∃ r o d, exec i s = .next { s with st := 6, r := r, dout := o, drawn := d } := by
  have hgate {α : Type} (k : Unit → State → Res α) : (requireTouchReady s).bind k = .raised .notReady s := by
    rw [requireTouchReady_not s hready, bind_raised]
  cases i with
  | tInit => exact absurd rfl hinit
  | tCfg => exact touchNotReady_next (hgate _)
  | tLock => exact touchNotReady_next (congrArg Res.silent (hgate _))
  | tWait => exact touchNotReady_next (hgate _)
  | tPoll => exact touchNotReady_next (congrArg (Res.bind · _) (hgate _))
  | touchIdRead | touchConfigRead | touchStatusRead | touchStatusAck | touchFrameRead | touchLockctlWrite
  | touchLockstatusRead | touchLockstatusAck => cases hhost
  | _ => cases hunit

theorem exec_panel_notReady {i : Instr} {s : State} (hhost : i.channel = .host) (hunit : unitOf i = .ers)
    (hinit : ∀ w h, i ≠ .eInit w h) (hready : s.eReady = false) :
    ∃ r o d, exec i s = .next { s with st := 6, r := r, dout := o, drawn := d } := by
  cases i with
  | eInit w h => exact absurd rfl (hinit w h)
  | eGeom => exact raised_next (e := .notReady) (by rw [requirePanelReady_not s hready, bind_raised])
  | eSetsize | eSetmodeP | eSetmodeF | eSetautoNone | eSetautoFull | eSetautoWhite | eSetmax | eClearW | eClearB
  | eRawfb | ePutbmp | ePoweroff => exact panelNotReady_next hready _
  | epdDriverOutputControl | epdDeepSleep | epdDataInputMode | epdSoftReset | epdTemperatureSource | epdBeginUpdate
  | epdDisplayUpdateControl1 | epdDisplayUpdateControl2 | epdUploadImageData | epdBorderWaveformControl
  | epdDrawRegionX | epdDrawRegionY | epdDrawOffsetX | epdDrawOffsetY => cases hhost
  | _ => cases hunit

/-- Settles O31: each of these operations starts with its unit's gate. -/
theorem unreadyUnitsRefuse : Obligations.UnreadyUnitsRefuse := by
  unfold Obligations.UnreadyUnitsRefuse
  exact fun i s hhost => ⟨exec_touch_notReady hhost, exec_panel_notReady hhost⟩

/-! The flag after an error, by the code on `ST` (R290). -/

/-- A `TransportError` of a unit with a bus, or a `ProtocolMismatch` of `T.INIT`, leaves that unit not ready. -/
def ErrorClears (i : Instr) (t : State) : Prop :=
  (t.st = 1 → (unitOf i = .tes ∧ t.tReady = false) ∨ (unitOf i = .ers ∧ t.eReady = false)) ∧
    (t.st = 2 → i = .tInit ∧ t.tReady = false)

theorem errorCode_ne_two {e : Error} (h : e.isMild = true) : errorCode e ≠ 2 := by
  cases e with
  | transportError u => exact absurd h Bool.false_ne_true
  | protocolMismatch => exact absurd h Bool.false_ne_true
  | outOfRange | capacityExceeded | illegalOp | notReady => decide

theorem errorClears_present (i : Instr) (s : State) (res : Results) : ErrorClears i (s.present res) :=
  ⟨fun hst => absurd hst (by decide : (0 : BitVec 8) ≠ 1), fun hst => absurd hst (by decide : (0 : BitVec 8) ≠ 2)⟩

theorem errorClears_mild (i : Instr) (s : State) {e : Error} (h : e.isMild = true) : ErrorClears i (s.raise e) :=
  ⟨fun hst => absurd hst (errorCode_ne_one h), fun hst => absurd hst (errorCode_ne_two h)⟩

theorem CodecEnds.errorClears {i : Instr} {s t : State} {x : Res Results} (hx : CodecEnds s x)
    (h : x.complete = .next t) : ErrorClears i t :=
  next_of_ends hx (fun s' res _ => errorClears_present i s' res) (fun _ s' he => errorClears_mild i s' he.1) h

theorem TouchEnds.errorClears {i : Instr} {s t : State} {x : Res Results} (unit : unitOf i = .tes)
    (hx : TouchEnds i s x) (h : x.complete = .next t) : ErrorClears i t := by
  refine next_of_ends hx (fun s' res _ => errorClears_present i s' res) (fun e s' he => ?_) h
  cases he with
  | mild mild => exact errorClears_mild i s' mild
  | transport => exact ⟨fun _ => .inl ⟨unit, rfl⟩, fun hst => absurd hst (by decide : (1 : BitVec 8) ≠ 2)⟩
  | shortInit => exact errorClears_mild i s' rfl
  | mismatch op => exact ⟨fun hst => absurd hst (by decide : (2 : BitVec 8) ≠ 1), fun _ => ⟨op, rfl⟩⟩

theorem PanelEnds.errorClears {i : Instr} {s t : State} {x : Res Results} (unit : unitOf i = .ers)
    (hx : PanelEnds i s x) (h : x.complete = .next t) : ErrorClears i t := by
  refine next_of_ends hx (fun s' res _ => errorClears_present i s' res) (fun e s' he => ?_) h
  cases he with
  | mild mild => exact errorClears_mild i s mild
  | transport => exact ⟨fun _ => .inr ⟨unit, rfl⟩, fun hst => absurd hst (by decide : (1 : BitVec 8) ≠ 2)⟩

theorem exec_errorClears {i : Instr} {s t : State} (h : exec i s = .next t) : ErrorClears i t := by
  cases exec_unitRun i s with
  | codec _ run ends => exact ends.errorClears (run ▸ h)
  | touch unit run ends => exact ends.errorClears unit (run ▸ h)
  | panel unit run ends => exact ends.errorClears unit (run ▸ h)

/-! The flag without a `TransportError`: only `INIT` writes it. -/

theorem TouchNext.tReady_eq {i : Instr} {s t : State} (h : TouchNext i s t) (hst : t.st ≠ 1) (hinit : i ≠ .tInit) :
    t.tReady = s.tReady := by
  cases h with
  | failed _ how => exact absurd (how.resolve_left hst) hinit
  | done s1 update same =>
    obtain ⟨-, hready⟩ := same
    rw [hready]
    cases update with
    | start c op => exact absurd op hinit
    | keep | lock | unlock | releaseAll | frame => rfl

theorem PanelNext.eReady_eq {i : Instr} {s t : State} (h : PanelNext i s t) (hst : t.st ≠ 1)
    (hinit : ∀ w h, i ≠ .eInit w h) : t.eReady = s.eReady := by
  cases h with
  | failed _ how => exact absurd how hst
  | done s1 update same =>
    obtain ⟨-, hready⟩ := same
    rw [hready]
    cases update with
    | start w h op => exact absurd op (hinit w h)
    | keep | setSize | setPartialMode | setFullMode | setAuto | setMax | upload => rfl

theorem exec_tReady_eq {i : Instr} {s t : State} (h : exec i s = .next t) (hst : t.st ≠ 1) (hinit : i ≠ .tInit) :
    t.tReady = s.tReady := by
  cases exec_unitNext h with
  | codec _ touch => exact touch.2
  | touch _ _ _ _ next => exact next.tReady_eq hst hinit
  | panel _ _ touch => exact touch.2

theorem exec_eReady_eq {i : Instr} {s t : State} (h : exec i s = .next t) (hst : t.st ≠ 1)
    (hinit : ∀ w h, i ≠ .eInit w h) : t.eReady = s.eReady := by
  cases exec_unitNext h with
  | codec _ _ panel => exact panel.2
  | touch _ _ panel => exact panel.2
  | panel _ _ _ _ next => exact next.eReady_eq hst hinit

/-! An `INIT` that succeeds sets the flag last (R173, R217). -/

theorem silent_next_of_st_zero {x : Res Unit} {t : State} (h : x.silent.complete = .next t) (hst : t.st = 0) :
    ∃ s, x = .ok () s ∧ t = s.present noResults := by
  rcases silent_complete_eq_next.mp h with hok | ⟨e, s, -, rfl⟩
  · exact hok
  · exact absurd hst (errorCode_ne_zero e)

theorem tReady_of_initTouch_ok {s t : State} (h : initTouch s = .ok () t) : t.tReady = true := by
  rw [initTouch_eq] at h
  obtain ⟨ident, s2, -, h⟩ := bind_eq_ok.mp h
  split at h
  · cases h
  · obtain ⟨answer, s3, -, h⟩ := bind_eq_ok.mp h
    obtain ⟨_, s4, -, h⟩ := bind_eq_ok.mp h
    cases h
    rfl

theorem eReady_of_initPanel_ok {w h : BitVec 16} {s t : State} (hok : initPanel w h s = .ok () t) :
    t.eReady = true := by
  by_cases hzero : w = 0 ∨ h = 0
  · rw [initPanel_zero hzero] at hok
    cases hok
  · obtain ⟨hw, hh⟩ := not_or.mp hzero
    rw [initPanel_eq hw hh] at hok
    obtain ⟨_, s1, -, hok⟩ := bind_eq_ok.mp hok
    cases hok
    rfl

theorem exec_tInit_ready {s t : State} (h : exec .tInit s = .next t) (hst : t.st = 0) : t.tReady = true := by
  obtain ⟨s1, hok, rfl⟩ := silent_next_of_st_zero (x := initTouch s) h hst
  have hready : s1.tReady = true := tReady_of_initTouch_ok hok
  exact hready

theorem exec_eInit_ready {w h : BitVec 16} {s t : State} (hnext : exec (.eInit w h) s = .next t) (hst : t.st = 0) :
    t.eReady = true := by
  obtain ⟨s1, hok, rfl⟩ := silent_next_of_st_zero (x := initPanel w h s) hnext hst
  have hready : s1.eReady = true := eReady_of_initPanel_ok hok
  exact hready

/-- Settles O32: by the code on `ST` for the errors, by the updates of each unit for the rest. -/
theorem errorsClearTheReadyFlag : Obligations.ErrorsClearTheReadyFlag := by
  unfold Obligations.ErrorsClearTheReadyFlag
  intro i s t h
  obtain ⟨htransport, hmismatch⟩ := exec_errorClears h
  refine ⟨htransport, hmismatch, exec_tReady_eq h, exec_eReady_eq h, ?_, ?_⟩
  · rintro hst rfl
    exact exec_tInit_ready h hst
  · rintro hst ⟨w, h', rfl⟩
    exact exec_eInit_ready h hst

end Sys2Proof.Machine
end

section
/-! Block reset (70_reset_and_hazards.md R330). -/

namespace Sys2Proof.Machine

/-- The buffer of block reset holds the empty byte sequence (R22, R330). -/
theorem reset_buf_toBytes : State.reset.buf.toBytes = [] := toBytes_ofBytes []

/-- Settles O56: the buffer by the bytes it holds, every other field by its value at block reset (R50). -/
theorem blockReset : Obligations.BlockReset := by
  unfold Obligations.BlockReset
  exact ⟨reset_buf_toBytes, rfl, rfl, rfl, rfl, rfl, rfl, rfl, rfl⟩

end Sys2Proof.Machine
end
